-- ==== Sys2Proof/Word.lean ====
section
/-! DEFINITION. The three word sizes of the machine (spec 00_scope.md rule R8: byte = 8 bits, word = 16 bits,
dword = 32 bits) and the name of a device id. Every value is an unsigned bit vector and wraps modulo 2^n (R10). -/

namespace Sys2Proof

/-- A byte: a general register, a memory cell, a port, the stack pointer (R8). -/
abbrev Byte := BitVec 8

/-- A word: the program counter and every memory address (R8). -/
abbrev Word := BitVec 16

/-- A dword: one instruction word, the instruction register (R8, R70). -/
abbrev Dword := BitVec 32

/-- A peripheral's device id; 0 means "unassigned" (R8, R36). The spec gives ids no width, so it is a number. -/
abbrev DeviceId := Nat

end Sys2Proof
end

