-- ==== Sys2Proof/Config.lean ====
section
/-! DEFINITION. The numbers of the machine that the spec takes from its source unaudited, each said once (spec 00_scope.md rules
R4, R8, 93_implementation_defined.md U15). The parameters that the source leaves open (R9) stand in
Sys2Proof/Machine/Params.lean under the same namespace. There is no free value in this model: the spec states every result
(93_implementation_defined.md part 1). -/

namespace Sys2Proof.Config

/-- Bytes of RAM: "a single 65,536-byte addressable space" (R35, R50). -/
abbrev memSize : Nat := 65536

/-- One-byte I/O ports: "256 single-byte ports" (R36). -/
abbrev portCount : Nat := 256

/-- Bytes in one instruction word: how many a fetch reads and how far the PC advances (R70, R103, R107). -/
abbrev instrBytes : Nat := 4

/-- General registers (R20); `Reg.all` lists them, and Sys2Proof/Laws/Decode.lean proves that it lists this many. -/
abbrev registerCount : Nat := 8

/-- Width of the opcode field (R71, R72). -/
abbrev opcodeBits : Nat := 6

/-- Width of the addressing-mode field (R71, R72). -/
abbrev modeBits : Nat := 4

/-- Width of each of the register fields R1, R2, R3 (R71, R73). -/
abbrev regBits : Nat := 3

/-- Width of each of the immediate fields V1, V2 (R71, R74). -/
abbrev immBits : Nat := 8

end Sys2Proof.Config
end

