-- ==== Sys2Proof/Syntax.lean ====
section
/-! DEFINITION. The syntax of the HBC-2 instruction set: the registers (spec 10_state.md R20), the addressing modes
(30_encoding.md R77), the mnemonics (R78) and ONE constructor of `Instr` per supported form (R79), which is one per row of
spec/opcode_table.json. A constructor's name is the mnemonic followed by the mode. An unmatched word (R80) is no
instruction: `Sys2Proof.decode` answers it by name and it executes as a no-op (log entry 16). -/

namespace Sys2Proof

/-- The eight general registers, by name (R20). -/
inductive Reg where
  | a | b | c | d | i | j | x | y
  deriving DecidableEq, Repr

/-- Every register (R20). -/
def Reg.all : List Reg := [.a, .b, .c, .d, .i, .j, .x, .y]

/-- The eight addressing modes (R77). -/
inductive Mode where
  /-- NONE: "no operands". -/
  | none
  /-- REG: "register-register". -/
  | reg
  /-- REG_IMM8: "register + 8-bit immediate". -/
  | regImm8
  /-- REG_RAM: "register + 16-bit immediate address". -/
  | regRam
  /-- RAMREG_IMMREG: "two registers forming a 16-bit address, third register as data". -/
  | ramreg
  /-- REG16: "two registers forming a 16-bit value, e.g. jump target". -/
  | reg16
  /-- IMM16: "16-bit immediate". -/
  | imm16
  /-- IMM8: "8-bit immediate". -/
  | imm8
  deriving DecidableEq, Repr

/-- Every mode (R77). -/
def Mode.all : List Mode := [.none, .reg, .regImm8, .regRam, .ramreg, .reg16, .imm16, .imm8]

/-- The 47 mnemonics, in the order of their opcodes (R78); `portIn` is IN and `portOut` is OUT. -/
inductive Op where
  | nop | adc | add | and | cal | clc | cle | cli | cln | cls | clz | clf
  | cmp | dec | hlt | portIn | portOut | inc | int | irt | jmc | jme | jmf | jmn
  | jmp | jms | jmz | lod | mov | not | or | pop | psh | ret | sbb | shl
  | shr | stc | ste | stf | sti | stn | str | sts | stz | sub | xor
  deriving DecidableEq, Repr

/-- Every mnemonic (R78). -/
def Op.all : List Op :=
  [Op.nop, .adc, .add, .and, .cal, .clc, .cle, .cli, .cln, .cls, .clz, .clf] ++
  [Op.cmp, .dec, .hlt, .portIn, .portOut, .inc, .int, .irt, .jmc, .jme, .jmf, .jmn] ++
  [Op.jmp, .jms, .jmz, .lod, .mov, .not, .or, .pop, .psh, .ret, .sbb, .shl] ++
  [Op.shr, .stc, .ste, .stf, .sti, .stn, .str, .sts, .stz, .sub, .xor]

/-- One supported form (R79): the instruction as the decoder hands it to the Execute step. -/
inductive Instr where
  /-- `nop` (NONE, R220). -/
  | nop
  /-- `adc r1, r2` (REG, R132). -/
  | adcReg (r1 r2 : Reg)
  /-- `adc r1, imm8` (REG_IMM8, R132). -/
  | adcRegImm8 (r1 : Reg) (v1 : Byte)
  /-- `adc r1, [imm16]` (REG_RAM, R132). -/
  | adcRegRam (r1 : Reg) (vx : Word)
  /-- `adc r3, [r1:r2]` (RAMREG_IMMREG, R132). -/
  | adcRamreg (r1 r2 r3 : Reg)
  /-- `add r1, r2` (REG, R131). -/
  | addReg (r1 r2 : Reg)
  /-- `add r1, imm8` (REG_IMM8, R131). -/
  | addRegImm8 (r1 : Reg) (v1 : Byte)
  /-- `add r1, [imm16]` (REG_RAM, R131). -/
  | addRegRam (r1 : Reg) (vx : Word)
  /-- `add r3, [r1:r2]` (RAMREG_IMMREG, R131). -/
  | addRamreg (r1 r2 r3 : Reg)
  /-- `and r1, r2` (REG, R151). -/
  | andReg (r1 r2 : Reg)
  /-- `and r1, imm8` (REG_IMM8, R151). -/
  | andRegImm8 (r1 : Reg) (v1 : Byte)
  /-- `and r1, [imm16]` (REG_RAM, R151). -/
  | andRegRam (r1 : Reg) (vx : Word)
  /-- `and r3, [r1:r2]` (RAMREG_IMMREG, R151). -/
  | andRamreg (r1 r2 r3 : Reg)
  /-- `cal imm16` (IMM16, R178). -/
  | calImm16 (vx : Word)
  /-- `cal r1:r2` (REG16, R178). -/
  | calReg16 (r1 r2 : Reg)
  /-- `clc` (NONE, R235). -/
  | clc
  /-- `cle` (NONE, R236). -/
  | cle
  /-- `cli` (NONE, R238). -/
  | cli
  /-- `cln` (NONE, R239). -/
  | cln
  /-- `cls` (NONE, R240). -/
  | cls
  /-- `clz` (NONE, R241). -/
  | clz
  /-- `clf` (NONE, R237). -/
  | clf
  /-- `cmp r1, r2` (REG, R137). -/
  | cmpReg (r1 r2 : Reg)
  /-- `cmp r1, imm8` (REG_IMM8, R137). -/
  | cmpRegImm8 (r1 : Reg) (v1 : Byte)
  /-- `cmp r1, [imm16]` (REG_RAM, R137). -/
  | cmpRegRam (r1 : Reg) (vx : Word)
  /-- `cmp r3, [r1:r2]` (RAMREG_IMMREG, R137). -/
  | cmpRamreg (r1 r2 r3 : Reg)
  /-- `dec r1` (REG, R136). -/
  | decReg (r1 : Reg)
  /-- `hlt` (NONE, R221). -/
  | hlt
  /-- `in r1, r2` (REG, R206). -/
  | inReg (r1 r2 : Reg)
  /-- `in r1, imm8` (REG_IMM8, R206). -/
  | inRegImm8 (r1 : Reg) (v1 : Byte)
  /-- `out r1, r2` (REG, R207). -/
  | outReg (r1 r2 : Reg)
  /-- `out imm8, r1` (REG_IMM8, R207). -/
  | outRegImm8 (r1 : Reg) (v1 : Byte)
  /-- `inc r1` (REG, R135). -/
  | incReg (r1 : Reg)
  /-- `int imm8` (IMM8, R222). -/
  | intImm8 (v1 : Byte)
  /-- `irt` (NONE, R224). -/
  | irt
  /-- `jmc imm16` (IMM16, R172). -/
  | jmcImm16 (vx : Word)
  /-- `jmc r1:r2` (REG16, R172). -/
  | jmcReg16 (r1 r2 : Reg)
  /-- `jme imm16` (IMM16, R173). -/
  | jmeImm16 (vx : Word)
  /-- `jme r1:r2` (REG16, R173). -/
  | jmeReg16 (r1 r2 : Reg)
  /-- `jmf imm16` (IMM16, R174). -/
  | jmfImm16 (vx : Word)
  /-- `jmf r1:r2` (REG16, R174). -/
  | jmfReg16 (r1 r2 : Reg)
  /-- `jmn imm16` (IMM16, R175). -/
  | jmnImm16 (vx : Word)
  /-- `jmn r1:r2` (REG16, R175). -/
  | jmnReg16 (r1 r2 : Reg)
  /-- `jmp imm16` (IMM16, R171). -/
  | jmpImm16 (vx : Word)
  /-- `jmp r1:r2` (REG16, R171). -/
  | jmpReg16 (r1 r2 : Reg)
  /-- `jms imm16` (IMM16, R176). -/
  | jmsImm16 (vx : Word)
  /-- `jms r1:r2` (REG16, R176). -/
  | jmsReg16 (r1 r2 : Reg)
  /-- `jmz imm16` (IMM16, R177). -/
  | jmzImm16 (vx : Word)
  /-- `jmz r1:r2` (REG16, R177). -/
  | jmzReg16 (r1 r2 : Reg)
  /-- `lod r1, [imm16]` (REG_RAM, R202). -/
  | lodRegRam (r1 : Reg) (vx : Word)
  /-- `lod r3, [r1:r2]` (RAMREG_IMMREG, R202). -/
  | lodRamreg (r1 r2 r3 : Reg)
  /-- `mov r1, r2` (REG, R200). -/
  | movReg (r1 r2 : Reg)
  /-- `mov r1, imm8` (REG_IMM8, R200). -/
  | movRegImm8 (r1 : Reg) (v1 : Byte)
  /-- `not r1` (REG, R154). -/
  | notReg (r1 : Reg)
  /-- `or r1, r2` (REG, R152). -/
  | orReg (r1 r2 : Reg)
  /-- `or r1, imm8` (REG_IMM8, R152). -/
  | orRegImm8 (r1 : Reg) (v1 : Byte)
  /-- `or r1, [imm16]` (REG_RAM, R152). -/
  | orRegRam (r1 : Reg) (vx : Word)
  /-- `or r3, [r1:r2]` (RAMREG_IMMREG, R152). -/
  | orRamreg (r1 r2 r3 : Reg)
  /-- `pop r1` (REG, R191). -/
  | popReg (r1 : Reg)
  /-- `psh r1` (REG, R190). -/
  | pshReg (r1 : Reg)
  /-- `psh imm8` (IMM8, R190). -/
  | pshImm8 (v1 : Byte)
  /-- `ret` (NONE, R179). -/
  | ret
  /-- `sbb r1, r2` (REG, R134). -/
  | sbbReg (r1 r2 : Reg)
  /-- `sbb r1, imm8` (REG_IMM8, R134). -/
  | sbbRegImm8 (r1 : Reg) (v1 : Byte)
  /-- `sbb r1, [imm16]` (REG_RAM, R134). -/
  | sbbRegRam (r1 : Reg) (vx : Word)
  /-- `sbb r3, [r1:r2]` (RAMREG_IMMREG, R134). -/
  | sbbRamreg (r1 r2 r3 : Reg)
  /-- `shl r1` (REG, R155). -/
  | shlReg (r1 : Reg)
  /-- `shr r1` (REG, R156). -/
  | shrReg (r1 : Reg)
  /-- `stc` (NONE, R242). -/
  | stc
  /-- `ste` (NONE, R243). -/
  | ste
  /-- `stf` (NONE, R244). -/
  | stf
  /-- `sti` (NONE, R245). -/
  | sti
  /-- `stn` (NONE, R246). -/
  | stn
  /-- `str [imm16], r1` (REG_RAM, R203). -/
  | strRegRam (r1 : Reg) (vx : Word)
  /-- `str [r1:r2], r3` (RAMREG_IMMREG, R203). -/
  | strRamreg (r1 r2 r3 : Reg)
  /-- `sts` (NONE, R247). -/
  | sts
  /-- `stz` (NONE, R248). -/
  | stz
  /-- `sub r1, r2` (REG, R133). -/
  | subReg (r1 r2 : Reg)
  /-- `sub r1, imm8` (REG_IMM8, R133). -/
  | subRegImm8 (r1 : Reg) (v1 : Byte)
  /-- `sub r1, [imm16]` (REG_RAM, R133). -/
  | subRegRam (r1 : Reg) (vx : Word)
  /-- `sub r3, [r1:r2]` (RAMREG_IMMREG, R133). -/
  | subRamreg (r1 r2 r3 : Reg)
  /-- `xor r1, r2` (REG, R153). -/
  | xorReg (r1 r2 : Reg)
  /-- `xor r1, imm8` (REG_IMM8, R153). -/
  | xorRegImm8 (r1 : Reg) (v1 : Byte)
  /-- `xor r1, [imm16]` (REG_RAM, R153). -/
  | xorRegRam (r1 : Reg) (vx : Word)
  /-- `xor r3, [r1:r2]` (RAMREG_IMMREG, R153). -/
  | xorRamreg (r1 r2 r3 : Reg)
  deriving DecidableEq, Repr

end Sys2Proof
end

