-- ==== Sys2Proof/Machine/Params.lean ====
section
/-! DEFINITION. The parameters the source leaves open (spec 00_scope.md rule R9, 47_flag_ops.md rule R249). `Params` is the
configuration argument, one field per parameter; `Config.params` is its default, the value the spec takes, and each parameter's
default stands once, under its own name. Every operation that depends on a parameter takes a `Params` as its last argument,
`Config.params` where none is given; the machine for other values is Sys2Proof/Machine/Parametric.lean (log entry 4). -/

namespace Sys2Proof

/-! ### Numbers -/

/-- `REG_CODE` (10_state.md R21, D3). -/
def regCode : Reg → BitVec Config.regBits
  | .a => 0 | .b => 1 | .c => 2 | .d => 3 | .i => 4 | .j => 5 | .x => 6 | .y => 7

/-- `MODE_CODE` (30_encoding.md R77, D2). -/
def modeCode : Mode → BitVec Config.modeBits
  | .none => 0 | .reg => 1 | .regImm8 => 2 | .regRam => 3 | .ramreg => 4 | .reg16 => 5 | .imm16 => 6 | .imm8 => 7

/-- `OPCODE` (30_encoding.md R78, D4). -/
def opcodeOf : Op → BitVec Config.opcodeBits
  | .nop => 0x00 | .adc => 0x01 | .add => 0x02 | .and => 0x03 | .cal => 0x04 | .clc => 0x05
  | .cle => 0x06 | .cli => 0x07 | .cln => 0x08 | .cls => 0x09 | .clz => 0x0A | .clf => 0x0B
  | .cmp => 0x0C | .dec => 0x0D | .hlt => 0x0E | .portIn => 0x0F | .portOut => 0x10 | .inc => 0x11
  | .int => 0x12 | .irt => 0x13 | .jmc => 0x14 | .jme => 0x15 | .jmf => 0x16 | .jmn => 0x17
  | .jmp => 0x18 | .jms => 0x19 | .jmz => 0x1A | .lod => 0x1B | .mov => 0x1C | .not => 0x1D
  | .or => 0x1E | .pop => 0x1F | .psh => 0x20 | .ret => 0x21 | .sbb => 0x22 | .shl => 0x23
  | .shr => 0x24 | .stc => 0x25 | .ste => 0x26 | .stf => 0x27 | .sti => 0x28 | .stn => 0x29
  | .str => 0x2A | .sts => 0x2B | .stz => 0x2C | .sub => 0x2D | .xor => 0x2E

/-! ### Layout -/

/-- Where each field of the instruction word begins: its lowest bit (30_encoding.md R71 to R74). The widths are those of
Sys2Proof/Config.lean; VX is V1:V2 (R75). -/
structure Layout where
  opcode : Nat
  mode : Nat
  r1 : Nat
  r2 : Nat
  r3 : Nat
  v1 : Nat
  v2 : Nat
  deriving DecidableEq, Repr

namespace Config

/-- `LAYOUT` (R71, D1): opcode [31:26], mode [25:22], R1 [21:19], R2 [18:16], R3 [15:13], V1 [15:8], V2 [7:0]. R3 shares its bits
with V1. -/
def layout : Layout where
  opcode := 26
  mode := 22
  r1 := 19
  r2 := 16
  r3 := 13
  v1 := 8
  v2 := 0

/-! ### Addresses, capacity and choices -/

/-- `IVT_BASE` (R59, D8): the interrupt vector table's address. -/
def ivtBase : Word := 0x0000

/-- `STACK_BASE` (R30, D9): the address of the stack byte at pointer value 0. -/
def stackBase : Word := 0x0200

/-- `PROGRAM_START` (R59, D10): the PC after reset. -/
def programStart : Word := 0x0300

/-- `IRQ_QUEUE_CAPACITY` (R37, D11): the most records the interrupt queue holds. -/
def irqQueueCapacity : Nat := 256

/-- `PROLOGUE_LOADS_I` (R277, D20): whether the interrupt prologue also loads register I from the data bus. -/
def prologueLoadsI : Bool := false

/-- `HAS_FLAG_OPS` (R249, D33): whether the fourteen flag instructions exist; with `false` their opcodes are unmatched. -/
def hasFlagOps : Bool := true

/-- The values of `ENV_INTERLEAVE` (R58, D25). -/
inductive EnvInterleave where
  /-- The environment acts only between two Motherboard ticks. -/
  | tickBoundary
  /-- The environment acts between any two byte accesses. Declared out of this model: notes/assumptions/5.md. -/
  | access
  deriving DecidableEq, Repr

/-- `ENV_INTERLEAVE` (R58, D25): a whole tick is atomic. Machine/Environment.lean is the environment of this value, and the only one
that is modelled (log entry 5). -/
def envInterleave : EnvInterleave := .tickBoundary

end Config

/-- The configuration argument: the parameters of R9, and `HAS_FLAG_OPS` of R249. -/
structure Params where
  /-- `LAYOUT`. -/
  layout : Layout
  /-- `MODE_CODE`: a numbering of the modes, no two alike. -/
  modeCode : Mode → BitVec Config.modeBits
  /-- `REG_CODE`: a numbering of the registers by all the codes, no two alike. -/
  regCode : Reg → BitVec Config.regBits
  /-- `OPCODE`: a numbering of the mnemonics, no two alike. -/
  opcode : Op → BitVec Config.opcodeBits
  /-- `IVT_BASE`. -/
  ivtBase : Word
  /-- `STACK_BASE`. -/
  stackBase : Word
  /-- `PROGRAM_START`. -/
  programStart : Word
  /-- `IRQ_QUEUE_CAPACITY`. -/
  irqQueueCapacity : Nat
  /-- `PROLOGUE_LOADS_I`. -/
  prologueLoadsI : Bool
  /-- `ENV_INTERLEAVE`; the value `access` is outside this model (log entry 5). -/
  envInterleave : Config.EnvInterleave
  /-- `HAS_FLAG_OPS`. -/
  hasFlagOps : Bool

/-- Every parameter at the value the spec takes (R9, R249): the default of the configuration argument. -/
def Config.params : Params where
  layout := Config.layout
  modeCode := modeCode
  regCode := regCode
  opcode := opcodeOf
  ivtBase := Config.ivtBase
  stackBase := Config.stackBase
  programStart := Config.programStart
  irqQueueCapacity := Config.irqQueueCapacity
  prologueLoadsI := Config.prologueLoadsI
  envInterleave := Config.envInterleave
  hasFlagOps := Config.hasFlagOps

end Sys2Proof
end

