-- ==== Sys2Proof/WellFormed.lean ====
section
/-! DEFINITION. Which terms of `Instr` are instructions of the machine. Register operands are names and immediates are
bit vectors of their own width, so every operand of every form is in range by its type; what is left to check is the
parameter `HAS_FLAG_OPS` (spec 47_flag_ops.md R249): with it false, the fourteen flag instructions do not exist. -/

namespace Sys2Proof

/-- The fourteen instructions of 47_flag_ops.md (R235 to R248). -/
def Instr.isFlagOp : Instr → Bool
  | .clc | .cle | .cli | .cln | .cls | .clz | .clf
  | .stc | .ste | .stf | .sti | .stn | .sts | .stz => true
  | .nop | .adcReg _ _ | .adcRegImm8 _ _ | .adcRegRam _ _ | .adcRamreg _ _ _ | .addReg _ _ | .addRegImm8 _ _
  | .addRegRam _ _ | .addRamreg _ _ _ | .andReg _ _ | .andRegImm8 _ _ | .andRegRam _ _ | .andRamreg _ _ _
  | .calImm16 _ | .calReg16 _ _ | .cmpReg _ _ | .cmpRegImm8 _ _ | .cmpRegRam _ _ | .cmpRamreg _ _ _ | .decReg _
  | .hlt | .inReg _ _ | .inRegImm8 _ _ | .outReg _ _ | .outRegImm8 _ _ | .incReg _ | .intImm8 _ | .irt
  | .jmcImm16 _ | .jmcReg16 _ _ | .jmeImm16 _ | .jmeReg16 _ _ | .jmfImm16 _ | .jmfReg16 _ _ | .jmnImm16 _
  | .jmnReg16 _ _ | .jmpImm16 _ | .jmpReg16 _ _ | .jmsImm16 _ | .jmsReg16 _ _ | .jmzImm16 _ | .jmzReg16 _ _
  | .lodRegRam _ _ | .lodRamreg _ _ _ | .movReg _ _ | .movRegImm8 _ _ | .notReg _ | .orReg _ _ | .orRegImm8 _ _
  | .orRegRam _ _ | .orRamreg _ _ _ | .popReg _ | .pshReg _ | .pshImm8 _ | .ret | .sbbReg _ _ | .sbbRegImm8 _ _
  | .sbbRegRam _ _ | .sbbRamreg _ _ _ | .shlReg _ | .shrReg _ | .strRegRam _ _ | .strRamreg _ _ _ | .subReg _ _
  | .subRegImm8 _ _ | .subRegRam _ _ | .subRamreg _ _ _ | .xorReg _ _ | .xorRegImm8 _ _ | .xorRegRam _ _
  | .xorRamreg _ _ _ => false

/-- Whether a form exists when `HAS_FLAG_OPS` is `flagOps` (R249). -/
def Instr.existsWith (flagOps : Bool) (i : Instr) : Bool := flagOps || !i.isFlagOp

/-- Whether a form exists under the parameters' values. -/
def WellFormed (i : Instr) (P : Params := Config.params) : Bool := i.existsWith P.hasFlagOps

end Sys2Proof
end

