-- ==== Sys2Proof/Decode.lean ====
section
/-! DEFINITION. The instruction encoding, both ways (spec 30_encoding.md R70 to R84): the fields of a word, the decoder, total on
every word and rejecting an unmatched one by name, and the encoder. `LAYOUT`, `REG_CODE`, `MODE_CODE` and `OPCODE` come from the
configuration argument (Machine/Params.lean, log entry 4), the widths from Sys2Proof/Config.lean. -/

namespace Sys2Proof

/-! ### Numbers, read backwards -/

/-- The register a code names (10_state.md R21): `REG_CODE` read backwards. Each code names a register. -/
def regOf (code : BitVec Config.regBits) (P : Params := Config.params) : Reg :=
  (Reg.all.find? fun r => P.regCode r == code).getD .y

/-- The mode a code names; "codes 8..15 name no mode" (R77). -/
def modeOf (code : BitVec Config.modeBits) (P : Params := Config.params) : Option Mode :=
  Mode.all.find? fun m => P.modeCode m == code

/-- The mnemonic an opcode names; 0x2F to 0x3F name none (R78, R80). -/
def opOf (code : BitVec Config.opcodeBits) (P : Params := Config.params) : Option Op :=
  Op.all.find? fun o => P.opcode o == code

/-! ### Fields -/

/-- `opcode = ir[31:26]` (R72). -/
def opcodeField (w : Dword) (L : Layout := Config.layout) : BitVec Config.opcodeBits := w.extractLsb' L.opcode Config.opcodeBits

/-- `mode = ir[25:22]` (R72). -/
def modeField (w : Dword) (L : Layout := Config.layout) : BitVec Config.modeBits := w.extractLsb' L.mode Config.modeBits

/-- `r1 = ir[21:19]` (R73). -/
def r1Field (w : Dword) (L : Layout := Config.layout) : BitVec Config.regBits := w.extractLsb' L.r1 Config.regBits

/-- `r2 = ir[18:16]` (R73). -/
def r2Field (w : Dword) (L : Layout := Config.layout) : BitVec Config.regBits := w.extractLsb' L.r2 Config.regBits

/-- `r3 = ir[15:13]` (R73); it shares its bits with V1 (R71). -/
def r3Field (w : Dword) (L : Layout := Config.layout) : BitVec Config.regBits := w.extractLsb' L.r3 Config.regBits

/-- `v1 = ir[15:8]` (R74). -/
def v1Field (w : Dword) (L : Layout := Config.layout) : Byte := w.extractLsb' L.v1 Config.immBits

/-- `v2 = ir[7:0]` (R74): no form reads it by itself. -/
def v2Field (w : Dword) (L : Layout := Config.layout) : Byte := w.extractLsb' L.v2 Config.immBits

/-- `vx = ir[15:0] = (v1 << 8) | v2` (R75). -/
def vxField (w : Dword) (L : Layout := Config.layout) : Word := v1Field w L ++ v2Field w L

/-- What a word holds in its operand fields (40_execution_cycle.md R104), whichever of them its form reads. -/
structure OperandFields where
  r1 : Reg
  r2 : Reg
  r3 : Reg
  v1 : Byte
  vx : Word
  deriving DecidableEq, Repr

/-- The operand fields of a word (40_execution_cycle.md R104). -/
def operandFields (w : Dword) (P : Params := Config.params) : OperandFields where
  r1 := regOf (r1Field w P.layout) P
  r2 := regOf (r2Field w P.layout) P
  r3 := regOf (r3Field w P.layout) P
  v1 := v1Field w P.layout
  vx := vxField w P.layout

/-! ### Decoding -/

/-- Why a word is unmatched (R80): the three kinds the rule lists. -/
inductive Unmatched where
  /-- The opcode is 0x2F to 0x3F (or a flag instruction's, with `HAS_FLAG_OPS` false, R249). -/
  | unassignedOpcode
  /-- The mode code is 8 to 15. -/
  | unnamedMode
  /-- The (opcode, mode) pair is not a supported form of R79. -/
  | unsupportedForm
  deriving DecidableEq, Repr

/-- What decoding a word yields (R82): "either one supported form of rule R79 or unmatched". -/
inductive Decoded where
  | form (i : Instr)
  | unmatched (why : Unmatched)
  deriving DecidableEq, Repr

/-- The forms of ADD ADC SUB SBB CMP AND OR XOR (R79): REG, REG_IMM8, REG_RAM, RAMREG_IMMREG. -/
def aluForms (reg : Reg → Reg → Instr) (imm : Reg → Byte → Instr) (ram : Reg → Word → Instr)
    (ramreg : Reg → Reg → Reg → Instr) (m : Mode) (x : OperandFields) : Option Instr :=
  match m with
  | .reg => some (reg x.r1 x.r2)
  | .regImm8 => some (imm x.r1 x.v1)
  | .regRam => some (ram x.r1 x.vx)
  | .ramreg => some (ramreg x.r1 x.r2 x.r3)
  | .none | .reg16 | .imm16 | .imm8 => none

/-- The forms of MOV IN OUT (R79): REG, REG_IMM8. -/
def moveForms (reg : Reg → Reg → Instr) (imm : Reg → Byte → Instr) (m : Mode) (x : OperandFields) : Option Instr :=
  match m with
  | .reg => some (reg x.r1 x.r2)
  | .regImm8 => some (imm x.r1 x.v1)
  | .none | .regRam | .ramreg | .reg16 | .imm16 | .imm8 => none

/-- The forms of LOD STR (R79): REG_RAM, RAMREG_IMMREG. -/
def memoryForms (ram : Reg → Word → Instr) (ramreg : Reg → Reg → Reg → Instr) (m : Mode) (x : OperandFields) : Option Instr :=
  match m with
  | .regRam => some (ram x.r1 x.vx)
  | .ramreg => some (ramreg x.r1 x.r2 x.r3)
  | .none | .reg | .regImm8 | .reg16 | .imm16 | .imm8 => none

/-- The forms of the jumps and CAL (R79): IMM16, REG16. -/
def jumpForms (imm16 : Word → Instr) (reg16 : Reg → Reg → Instr) (m : Mode) (x : OperandFields) : Option Instr :=
  match m with
  | .imm16 => some (imm16 x.vx)
  | .reg16 => some (reg16 x.r1 x.r2)
  | .none | .reg | .regImm8 | .regRam | .ramreg | .imm8 => none

/-- The form of INC DEC NOT SHL SHR POP (R79): REG. -/
def oneRegForm (reg : Reg → Instr) (m : Mode) (x : OperandFields) : Option Instr :=
  match m with
  | .reg => some (reg x.r1)
  | .none | .regImm8 | .regRam | .ramreg | .reg16 | .imm16 | .imm8 => none

/-- The form of INT (R79): IMM8. -/
def oneByteForm (imm : Byte → Instr) (m : Mode) (x : OperandFields) : Option Instr :=
  match m with
  | .imm8 => some (imm x.v1)
  | .none | .reg | .regImm8 | .regRam | .ramreg | .reg16 | .imm16 => none

/-- The forms of PSH (R79): REG, IMM8. -/
def pushForms (reg : Reg → Instr) (imm : Byte → Instr) (m : Mode) (x : OperandFields) : Option Instr :=
  match m with
  | .reg => some (reg x.r1)
  | .imm8 => some (imm x.v1)
  | .none | .regImm8 | .regRam | .ramreg | .reg16 | .imm16 => none

/-- The form of an instruction without operands (R79): NONE. -/
def bareForm (i : Instr) (m : Mode) : Option Instr :=
  match m with
  | .none => some i
  | .reg | .regImm8 | .regRam | .ramreg | .reg16 | .imm16 | .imm8 => none

/-- The supported form of an (opcode, mode) pair, with the operands of the word (R77, R79). -/
def formOf (o : Op) (m : Mode) (x : OperandFields) : Option Instr :=
  match o with
  | .nop => bareForm .nop m
  | .adc => aluForms .adcReg .adcRegImm8 .adcRegRam .adcRamreg m x
  | .add => aluForms .addReg .addRegImm8 .addRegRam .addRamreg m x
  | .and => aluForms .andReg .andRegImm8 .andRegRam .andRamreg m x
  | .cal => jumpForms .calImm16 .calReg16 m x
  | .clc => bareForm .clc m
  | .cle => bareForm .cle m
  | .cli => bareForm .cli m
  | .cln => bareForm .cln m
  | .cls => bareForm .cls m
  | .clz => bareForm .clz m
  | .clf => bareForm .clf m
  | .cmp => aluForms .cmpReg .cmpRegImm8 .cmpRegRam .cmpRamreg m x
  | .dec => oneRegForm .decReg m x
  | .hlt => bareForm .hlt m
  | .portIn => moveForms .inReg .inRegImm8 m x
  | .portOut => moveForms .outReg .outRegImm8 m x
  | .inc => oneRegForm .incReg m x
  | .int => oneByteForm .intImm8 m x
  | .irt => bareForm .irt m
  | .jmc => jumpForms .jmcImm16 .jmcReg16 m x
  | .jme => jumpForms .jmeImm16 .jmeReg16 m x
  | .jmf => jumpForms .jmfImm16 .jmfReg16 m x
  | .jmn => jumpForms .jmnImm16 .jmnReg16 m x
  | .jmp => jumpForms .jmpImm16 .jmpReg16 m x
  | .jms => jumpForms .jmsImm16 .jmsReg16 m x
  | .jmz => jumpForms .jmzImm16 .jmzReg16 m x
  | .lod => memoryForms .lodRegRam .lodRamreg m x
  | .mov => moveForms .movReg .movRegImm8 m x
  | .not => oneRegForm .notReg m x
  | .or => aluForms .orReg .orRegImm8 .orRegRam .orRamreg m x
  | .pop => oneRegForm .popReg m x
  | .psh => pushForms .pshReg .pshImm8 m x
  | .ret => bareForm .ret m
  | .sbb => aluForms .sbbReg .sbbRegImm8 .sbbRegRam .sbbRamreg m x
  | .shl => oneRegForm .shlReg m x
  | .shr => oneRegForm .shrReg m x
  | .stc => bareForm .stc m
  | .ste => bareForm .ste m
  | .stf => bareForm .stf m
  | .sti => bareForm .sti m
  | .stn => bareForm .stn m
  | .str => memoryForms .strRegRam .strRamreg m x
  | .sts => bareForm .sts m
  | .stz => bareForm .stz m
  | .sub => aluForms .subReg .subRegImm8 .subRegRam .subRamreg m x
  | .xor => aluForms .xorReg .xorRegImm8 .xorRegRam .xorRamreg m x

/-- What a supported opcode and mode yield: the pair's form if it has one (R79), and if the form exists (47_flag_ops.md R249). -/
def decodedForm (form : Option Instr) (P : Params := Config.params) : Decoded :=
  match form with
  | none => .unmatched .unsupportedForm
  | some i => if WellFormed i P then .form i else .unmatched .unassignedOpcode

/-- Decoding is total on any 32-bit word (R82, R83): a supported form or unmatched, by name. -/
def decode (w : Dword) (P : Params := Config.params) : Decoded :=
  match opOf (opcodeField w P.layout) P, modeOf (modeField w P.layout) P with
  | none, _ => .unmatched .unassignedOpcode
  | some _, none => .unmatched .unnamedMode
  | some o, some m => decodedForm (formOf o m (operandFields w P)) P

/-- The bytes of a word in increasing address order are that word, big-endian (20_memory.md R54, 40_execution_cycle.md R103). -/
def wordOfBytes (bytes : List Byte) : Dword := bytes.foldl (fun w b => (w <<< 8) ||| b.setWidth 32) 0

/-- The byte of an instruction word at address offset `k`: offset 0 holds the highest bits (20_memory.md R54). -/
def byteOfWord (w : Dword) (k : Nat) : Byte := w.extractLsb' (8 * (Config.instrBytes - 1 - k)) 8

/-- The bytes of an instruction word in increasing address order. -/
def bytesOfWord (w : Dword) : List Byte := (List.range Config.instrBytes).map (byteOfWord w)

/-- The decoder on the bytes of an instruction as memory holds them. -/
def decodeBytes (bytes : List Byte) (P : Params := Config.params) : Decoded := decode (wordOfBytes bytes) P

/-- The instruction word an opcode table row's bits stand for: the bits above `nbits` are 0. -/
def tableWord (nbits w : Nat) : Dword := BitVec.ofNat 32 (w % 2 ^ nbits)

/-- The instruction the decoder reads from a word of spec/opcode_table.json, laid out in memory order. -/
def decodeTableWord (nbits w : Nat) : Option Instr :=
  match decodeBytes (bytesOfWord (tableWord nbits w)) with
  | .form i => some i
  | .unmatched _ => none

/-! ### Encoding -/

/-- The operand shapes of R77, as the encoder places them. -/
inductive OperandBits where
  | none
  | one (r1 : Reg)
  | two (r1 r2 : Reg)
  | three (r1 r2 r3 : Reg)
  | regByte (r1 : Reg) (v1 : Byte)
  | regAddr (r1 : Reg) (vx : Word)
  | byte (v1 : Byte)
  | addr (vx : Word)
  deriving DecidableEq, Repr

/-- A form's opcode, mode and operands (R79): the encoding table. -/
def Instr.parts : Instr → Op × Mode × OperandBits
  | .nop => (.nop, .none, .none)
  | .adcReg r1 r2 => (.adc, .reg, .two r1 r2)
  | .adcRegImm8 r1 v1 => (.adc, .regImm8, .regByte r1 v1)
  | .adcRegRam r1 vx => (.adc, .regRam, .regAddr r1 vx)
  | .adcRamreg r1 r2 r3 => (.adc, .ramreg, .three r1 r2 r3)
  | .addReg r1 r2 => (.add, .reg, .two r1 r2)
  | .addRegImm8 r1 v1 => (.add, .regImm8, .regByte r1 v1)
  | .addRegRam r1 vx => (.add, .regRam, .regAddr r1 vx)
  | .addRamreg r1 r2 r3 => (.add, .ramreg, .three r1 r2 r3)
  | .andReg r1 r2 => (.and, .reg, .two r1 r2)
  | .andRegImm8 r1 v1 => (.and, .regImm8, .regByte r1 v1)
  | .andRegRam r1 vx => (.and, .regRam, .regAddr r1 vx)
  | .andRamreg r1 r2 r3 => (.and, .ramreg, .three r1 r2 r3)
  | .calImm16 vx => (.cal, .imm16, .addr vx)
  | .calReg16 r1 r2 => (.cal, .reg16, .two r1 r2)
  | .clc => (.clc, .none, .none)
  | .cle => (.cle, .none, .none)
  | .cli => (.cli, .none, .none)
  | .cln => (.cln, .none, .none)
  | .cls => (.cls, .none, .none)
  | .clz => (.clz, .none, .none)
  | .clf => (.clf, .none, .none)
  | .cmpReg r1 r2 => (.cmp, .reg, .two r1 r2)
  | .cmpRegImm8 r1 v1 => (.cmp, .regImm8, .regByte r1 v1)
  | .cmpRegRam r1 vx => (.cmp, .regRam, .regAddr r1 vx)
  | .cmpRamreg r1 r2 r3 => (.cmp, .ramreg, .three r1 r2 r3)
  | .decReg r1 => (.dec, .reg, .one r1)
  | .hlt => (.hlt, .none, .none)
  | .inReg r1 r2 => (.portIn, .reg, .two r1 r2)
  | .inRegImm8 r1 v1 => (.portIn, .regImm8, .regByte r1 v1)
  | .outReg r1 r2 => (.portOut, .reg, .two r1 r2)
  | .outRegImm8 r1 v1 => (.portOut, .regImm8, .regByte r1 v1)
  | .incReg r1 => (.inc, .reg, .one r1)
  | .intImm8 v1 => (.int, .imm8, .byte v1)
  | .irt => (.irt, .none, .none)
  | .jmcImm16 vx => (.jmc, .imm16, .addr vx)
  | .jmcReg16 r1 r2 => (.jmc, .reg16, .two r1 r2)
  | .jmeImm16 vx => (.jme, .imm16, .addr vx)
  | .jmeReg16 r1 r2 => (.jme, .reg16, .two r1 r2)
  | .jmfImm16 vx => (.jmf, .imm16, .addr vx)
  | .jmfReg16 r1 r2 => (.jmf, .reg16, .two r1 r2)
  | .jmnImm16 vx => (.jmn, .imm16, .addr vx)
  | .jmnReg16 r1 r2 => (.jmn, .reg16, .two r1 r2)
  | .jmpImm16 vx => (.jmp, .imm16, .addr vx)
  | .jmpReg16 r1 r2 => (.jmp, .reg16, .two r1 r2)
  | .jmsImm16 vx => (.jms, .imm16, .addr vx)
  | .jmsReg16 r1 r2 => (.jms, .reg16, .two r1 r2)
  | .jmzImm16 vx => (.jmz, .imm16, .addr vx)
  | .jmzReg16 r1 r2 => (.jmz, .reg16, .two r1 r2)
  | .lodRegRam r1 vx => (.lod, .regRam, .regAddr r1 vx)
  | .lodRamreg r1 r2 r3 => (.lod, .ramreg, .three r1 r2 r3)
  | .movReg r1 r2 => (.mov, .reg, .two r1 r2)
  | .movRegImm8 r1 v1 => (.mov, .regImm8, .regByte r1 v1)
  | .notReg r1 => (.not, .reg, .one r1)
  | .orReg r1 r2 => (.or, .reg, .two r1 r2)
  | .orRegImm8 r1 v1 => (.or, .regImm8, .regByte r1 v1)
  | .orRegRam r1 vx => (.or, .regRam, .regAddr r1 vx)
  | .orRamreg r1 r2 r3 => (.or, .ramreg, .three r1 r2 r3)
  | .popReg r1 => (.pop, .reg, .one r1)
  | .pshReg r1 => (.psh, .reg, .one r1)
  | .pshImm8 v1 => (.psh, .imm8, .byte v1)
  | .ret => (.ret, .none, .none)
  | .sbbReg r1 r2 => (.sbb, .reg, .two r1 r2)
  | .sbbRegImm8 r1 v1 => (.sbb, .regImm8, .regByte r1 v1)
  | .sbbRegRam r1 vx => (.sbb, .regRam, .regAddr r1 vx)
  | .sbbRamreg r1 r2 r3 => (.sbb, .ramreg, .three r1 r2 r3)
  | .shlReg r1 => (.shl, .reg, .one r1)
  | .shrReg r1 => (.shr, .reg, .one r1)
  | .stc => (.stc, .none, .none)
  | .ste => (.ste, .none, .none)
  | .stf => (.stf, .none, .none)
  | .sti => (.sti, .none, .none)
  | .stn => (.stn, .none, .none)
  | .strRegRam r1 vx => (.str, .regRam, .regAddr r1 vx)
  | .strRamreg r1 r2 r3 => (.str, .ramreg, .three r1 r2 r3)
  | .sts => (.sts, .none, .none)
  | .stz => (.stz, .none, .none)
  | .subReg r1 r2 => (.sub, .reg, .two r1 r2)
  | .subRegImm8 r1 v1 => (.sub, .regImm8, .regByte r1 v1)
  | .subRegRam r1 vx => (.sub, .regRam, .regAddr r1 vx)
  | .subRamreg r1 r2 r3 => (.sub, .ramreg, .three r1 r2 r3)
  | .xorReg r1 r2 => (.xor, .reg, .two r1 r2)
  | .xorRegImm8 r1 v1 => (.xor, .regImm8, .regByte r1 v1)
  | .xorRegRam r1 vx => (.xor, .regRam, .regAddr r1 vx)
  | .xorRamreg r1 r2 r3 => (.xor, .ramreg, .three r1 r2 r3)

/-- What an instruction word holds, field by field; a field that nothing sets is 0. -/
structure WordFields where
  opcode : BitVec Config.opcodeBits
  mode : BitVec Config.modeBits
  r1 : BitVec Config.regBits := 0
  r2 : BitVec Config.regBits := 0
  r3 : BitVec Config.regBits := 0
  v1 : Byte := 0
  v2 : Byte := 0
  deriving DecidableEq, Repr

/-- A field's value at its place in the word. -/
def placeField {n : Nat} (lo : Nat) (v : BitVec n) : Dword := v.setWidth 32 <<< lo

/-- The word with the given fields (R71). R3 and V1 share bits, so at most one of them is set. -/
def packWord (f : WordFields) (L : Layout := Config.layout) : Dword :=
  placeField L.opcode f.opcode ||| placeField L.mode f.mode ||| placeField L.r1 f.r1 ||| placeField L.r2 f.r2 |||
    placeField L.r3 f.r3 ||| placeField L.v1 f.v1 ||| placeField L.v2 f.v2

/-- The fields of a word with the given opcode, mode and operands; every field the form does not use is 0. -/
def OperandBits.fields (op : BitVec Config.opcodeBits) (mode : BitVec Config.modeBits) (code : Reg → BitVec Config.regBits) :
    OperandBits → WordFields
  | .none => { opcode := op, mode := mode }
  | .one r1 => { opcode := op, mode := mode, r1 := code r1 }
  | .two r1 r2 => { opcode := op, mode := mode, r1 := code r1, r2 := code r2 }
  | .three r1 r2 r3 => { opcode := op, mode := mode, r1 := code r1, r2 := code r2, r3 := code r3 }
  | .regByte r1 v1 => { opcode := op, mode := mode, r1 := code r1, v1 := v1 }
  | .regAddr r1 vx => { opcode := op, mode := mode, r1 := code r1, v1 := vx.extractLsb' 8 8, v2 := vx.extractLsb' 0 8 }
  | .byte v1 => { opcode := op, mode := mode, v1 := v1 }
  | .addr vx => { opcode := op, mode := mode, v1 := vx.extractLsb' 8 8, v2 := vx.extractLsb' 0 8 }

/-- The word of an instruction (R71, R77 to R79), with 0 in every bit the form ignores (R76). -/
def encode (i : Instr) (P : Params := Config.params) : Dword :=
  packWord (i.parts.2.2.fields (P.opcode i.parts.1) (P.modeCode i.parts.2.1) P.regCode) P.layout

/-- All ones in the fields that an operand shape reads, and in the selection fields (R77, R83). -/
def OperandBits.readFields : OperandBits → WordFields
  | .none => { opcode := .allOnes _, mode := .allOnes _ }
  | .one _ => { opcode := .allOnes _, mode := .allOnes _, r1 := .allOnes _ }
  | .two _ _ => { opcode := .allOnes _, mode := .allOnes _, r1 := .allOnes _, r2 := .allOnes _ }
  | .three _ _ _ => { opcode := .allOnes _, mode := .allOnes _, r1 := .allOnes _, r2 := .allOnes _, r3 := .allOnes _ }
  | .regByte _ _ => { opcode := .allOnes _, mode := .allOnes _, r1 := .allOnes _, v1 := .allOnes _ }
  | .regAddr _ _ => { opcode := .allOnes _, mode := .allOnes _, r1 := .allOnes _, v1 := .allOnes _, v2 := .allOnes _ }
  | .byte _ => { opcode := .allOnes _, mode := .allOnes _, v1 := .allOnes _ }
  | .addr _ => { opcode := .allOnes _, mode := .allOnes _, v1 := .allOnes _, v2 := .allOnes _ }

/-- The bits of the word that an instruction's decoding depends on: every other bit "may hold any bits and the form means the
same" (R76). -/
def Instr.readMask (i : Instr) (L : Layout := Config.layout) : Dword := packWord i.parts.2.2.readFields L

end Sys2Proof
end

