-- ==== Sys2Proof/Machine/State.lean ====
section
/-! DEFINITION. The complete state of the core (spec 10_state.md R39), the reasons a step can stop, one named update per
field, and the state after reset. State is plain data: registers and flags by name, memory and the two port tables as
sparse lists in one canonical form (Machine/Table.lean), the interrupt queue as a list, oldest record first. -/

namespace Sys2Proof.Machine

/-- Why the machine stops with a fault: never. "The hardware raises no synchronous exception" (60_exceptions.md R260) and
"every tick is defined in every state" (70_reset_and_hazards.md R314), so the type has no constructor (log entry 17). Safe. -/
inductive Fault where
  deriving DecidableEq, Repr

/-- Why an operation is refused. `step` refuses nothing; the last two are raised by the environment's actions alone. -/
inductive Refusal where
  /-- An instruction without a meaning, raised by `exec`'s arms: no arm raises it, every form has its meaning. Safe. -/
  | notModelled (mnemonic : String)
  /-- Raised by `Session.act`: before the first successful `init` "the core has no defined state and no tick may be taken"
  (70_reset_and_hazards.md R304, 93_implementation_defined.md U13). Safe. -/
  | beforeInit
  /-- Raised by `Session.act`: an action that breaks a duty of 60_exceptions.md R286, "outside this spec" (U14). Safe. -/
  | dutyBroken
  deriving DecidableEq, Repr

/-- The eight general byte registers (10_state.md R20). -/
structure Regs where
  a : Byte
  b : Byte
  c : Byte
  d : Byte
  i : Byte
  j : Byte
  x : Byte
  y : Byte
  deriving DecidableEq, Repr

/-- The eight one-bit condition flags (10_state.md R26), in the spec's order; never packed into a byte (R27). -/
structure Flags where
  carry : Bool
  equal : Bool
  interrupt : Bool
  negative : Bool
  superior : Bool
  zero : Bool
  inferior : Bool
  halt : Bool
  deriving DecidableEq, Repr

/-- The CPU's tick state (10_state.md R32). -/
inductive CpuState where
  | instructionExec
  | interruptManagement
  deriving DecidableEq, Repr

/-- A pending interrupt: the port it came from and the data captured there (10_state.md R37). -/
structure IrqRecord where
  port : Byte
  data : Byte
  deriving DecidableEq, Repr

/-- RAM (10_state.md R35): the bytes that differ from `Memory.unlisted`, at strictly rising addresses. -/
abbrev Memory := List Host.Cell

/-- A table indexed by port number (10_state.md R36): the entries that are not 0, at strictly rising port numbers. -/
abbrev PortTable (β : Type) := List (Nat × β)

/-- The complete state of the core (10_state.md R39). -/
structure State where
  /-- `R[0..7]` (R20). -/
  regs : Regs
  /-- `F.*` (R26). -/
  flags : Flags
  /-- `pc` (R24). -/
  pc : Word
  /-- `sp` (R29). -/
  sp : Byte
  /-- `full`, the stack-full latch (R29). -/
  full : Bool
  /-- `jmp`, the jump-occurred marker (R31). -/
  jmp : Bool
  /-- `cpu_state` (R32). -/
  cpuState : CpuState
  /-- `ir`, the instruction register (R33). -/
  ir : Dword
  /-- `mode_view`, the mode field of the last fetched word (R33, log entry 15). -/
  modeView : BitVec Config.modeBits
  /-- `int_ready` (R34). -/
  intReady : Bool
  /-- `int_request` (R34). -/
  intRequest : Bool
  /-- `addr_bus` (R34). -/
  addrBus : Word
  /-- `data_bus` (R34). -/
  dataBus : Byte
  /-- `mem` (R35). -/
  mem : Memory
  /-- `port_data` (R36). -/
  portData : PortTable Byte
  /-- `port_owner` (R36). -/
  portOwner : PortTable DeviceId
  /-- `irq_queue` (R37), the front first. -/
  irqQueue : List IrqRecord
  deriving DecidableEq, Repr

namespace State

/-! ### One update per field -/

def setRegs (s : State) (v : Regs) : State := { s with regs := v }
def setFlags (s : State) (v : Flags) : State := { s with flags := v }
def setPc (s : State) (v : Word) : State := { s with pc := v }
def setStack (s : State) (sp : Byte) (full : Bool) : State := { s with sp := sp, full := full }
def setJmp (s : State) (v : Bool) : State := { s with jmp := v }
def setCpuState (s : State) (v : CpuState) : State := { s with cpuState := v }
def setFetched (s : State) (word : Dword) (mode : BitVec Config.modeBits) : State := { s with ir := word, modeView := mode }
def setIntReady (s : State) (v : Bool) : State := { s with intReady := v }
def setIntRequest (s : State) (v : Bool) : State := { s with intRequest := v }
def setBuses (s : State) (addr : Word) (data : Byte) : State := { s with addrBus := addr, dataBus := data }
def setMem (s : State) (v : Memory) : State := { s with mem := v }
def setPortData (s : State) (v : PortTable Byte) : State := { s with portData := v }
def setPortOwner (s : State) (v : PortTable DeviceId) : State := { s with portOwner := v }
def setIrqQueue (s : State) (v : List IrqRecord) : State := { s with irqQueue := v }

/-- The state after reset, at the start of a session (10_state.md R39, 70_reset_and_hazards.md R300 to R303). Its memory is
the image of zeros and no port is owned: log entries 1, 2 and 3. -/
def reset : State where
  regs := { a := 0, b := 0, c := 0, d := 0, i := 0, j := 0, x := 0, y := 0 }
  flags := { carry := false, equal := false, interrupt := true, negative := false,
             superior := false, zero := false, inferior := false, halt := false }
  pc := Config.programStart
  sp := 0
  full := false
  jmp := false
  cpuState := .instructionExec
  ir := 0
  modeView := 0
  intReady := false
  intRequest := false
  addrBus := 0
  dataBus := 0
  mem := []
  portData := []
  portOwner := []
  irqQueue := []

end State

end Sys2Proof.Machine
end

