-- ==== Sys2Proof/Machine/Flags.lean ====
section
/-! DEFINITION. The flag computations (spec 41_alu_arith.md, 42_alu_logic.md; summary 10_state.md R28). Sums and differences
are compared exactly, on numbers, as the rules write them. -/

namespace Sys2Proof.Machine

/-- `bool(s > 255)` of the exact sum `s = a + b + c` (R131, R132). -/
def carryOfAdd (a b : Byte) (c : Bool) : Bool := decide (a.toNat + b.toNat + c.toNat > 255)

/-- `bool(a < b + c)`: the borrow of `a - b - c` (R133, R134). -/
def borrowOfSub (a b : Byte) (c : Bool) : Bool := decide (a.toNat < b.toNat + c.toNat)

/-- `F.Z <- bool(res = 0); F.N <- res[7]` (R131, R151). -/
def Flags.withZN (f : Flags) (res : Byte) : Flags := { f with zero := decide (res = 0), negative := res.msb }

/-- `F.C <- c; F.Z <- bool(res = 0); F.N <- res[7]` (R131). -/
def Flags.withCZN (f : Flags) (c : Bool) (res : Byte) : Flags := { f.withZN res with carry := c }

/-- `F.C <- c; F.Z <- bool(res = 0)`: SHR, which does not write F.N (R156). -/
def Flags.withCZ (f : Flags) (c : Bool) (res : Byte) : Flags := { f with carry := c, zero := decide (res = 0) }

/-- `F.E <- bool(a = b); F.S <- bool(a > b); F.F <- bool(a < b)`, unsigned (R137). -/
def Flags.withCompare (f : Flags) (a b : Byte) : Flags :=
  { f with equal := decide (a = b), superior := decide (a.toNat > b.toNat), inferior := decide (a.toNat < b.toNat) }

end Sys2Proof.Machine
end

