-- ==== Sys2Proof/Machine/Table.lean ====
section
/-! DEFINITION. Sparse tables: the one representation of memory, port data and port owners. A table lists, at strictly rising
indices, the entries that differ from what an unlisted index reads as; so two tables that read alike are equal data. -/

namespace Sys2Proof.Machine

variable {β : Type}

/-- What index `k` reads as; `d` where it is not listed. -/
def lookup (d : β) : List (Nat × β) → Nat → β
  | [], _ => d
  | (k, v) :: rest, n => if k = n then v else lookup d rest n

/-- The table without index `n`. -/
def eraseIndex (n : Nat) : List (Nat × β) → List (Nat × β)
  | [] => []
  | (k, v) :: rest => if k = n then eraseIndex n rest else (k, v) :: eraseIndex n rest

/-- The table with the entry `(n, x)` put before the first higher index. -/
def insertIndex (n : Nat) (x : β) : List (Nat × β) → List (Nat × β)
  | [] => [(n, x)]
  | (k, v) :: rest => if n < k then (n, x) :: (k, v) :: rest else (k, v) :: insertIndex n x rest

/-- The table with index `n` reading `x`: the entry goes where `x` is what an unlisted index reads as. -/
def store [DecidableEq β] (d : β) (t : List (Nat × β)) (n : Nat) (x : β) : List (Nat × β) :=
  if x = d then eraseIndex n t else insertIndex n x (eraseIndex n t)

/-- The canonical form: indices below `bound` and strictly rising, no entry equal to `d`. -/
def canonical [DecidableEq β] (bound : Nat) (d : β) : List (Nat × β) → Bool
  | [] => true
  | (k, v) :: rest =>
    decide (k < bound) && decide (v ≠ d) && rest.all (fun e => decide (k < e.1)) && canonical bound d rest

/-- The table that reads `values` at the indices from `first` on, and `d` elsewhere. -/
def tableOf [DecidableEq β] (d : β) : Nat → List β → List (Nat × β)
  | _, [] => []
  | first, v :: rest => if v = d then tableOf d (first + 1) rest else (first, v) :: tableOf d (first + 1) rest

/-- What a byte of RAM that nothing has written reads as: the image of zeros (log entry 2). -/
def Memory.unlisted : Byte := 0x00

/-- The canonical form of memory: 65,536 addresses (10_state.md R35), rising, no entry that an unlisted address reads as. -/
def Memory.wf (m : Memory) : Bool := canonical Config.memSize Memory.unlisted m

/-- The byte of RAM at an address (20_memory.md R51). -/
def Memory.read (m : Memory) (a : Word) : Byte := lookup Memory.unlisted m a.toNat

/-- RAM with one byte replaced (20_memory.md R52). -/
def Memory.write (m : Memory) (a : Word) (v : Byte) : Memory := store Memory.unlisted m a.toNat v

/-- RAM holding an image (20_memory.md R53): byte `k` of the list at address `k`. -/
def Memory.ofImage (image : List Byte) : Memory := tableOf Memory.unlisted 0 image

/-- The canonical form of a port table: 256 ports (10_state.md R36), rising, no entry 0. -/
def PortTable.wfData (t : PortTable Byte) : Bool := canonical Config.portCount 0 t

/-- The canonical form of the owner table: 256 ports (10_state.md R36), rising, no entry 0 ("unassigned"). -/
def PortTable.wfOwner (t : PortTable DeviceId) : Bool := canonical Config.portCount 0 t

end Sys2Proof.Machine
end

