-- ==== Sys2Proof/Machine/Ops.lean ====
section
/-! DEFINITION. The named operations over the state that the instruction rules use (spec 00_scope.md R11): registers, memory,
ports, the program counter, the stack (40_execution_cycle.md R114 to R120), entering an interrupt handler and returning from it. -/

namespace Sys2Proof.Machine

/-- The outcome of one instruction or one step. -/
abbrev Result := Host.Outcome State Fault Refusal

/-- The outcome with `f` applied to its next state; a fault or a refusal stays. -/
def onNext (o : Result) (f : State → State) : Result :=
  match o with
  | .next s => .next (f s)
  | .fault r => .fault r
  | .refused r => .refused r

/-! ### Registers -/

/-- The register named by `r` in a register file. -/
def Regs.get (g : Regs) : Reg → Byte
  | .a => g.a | .b => g.b | .c => g.c | .d => g.d | .i => g.i | .j => g.j | .x => g.x | .y => g.y

/-- The register file with the register named by `r` replaced. -/
def Regs.set (g : Regs) (r : Reg) (v : Byte) : Regs :=
  match r with
  | .a => { g with a := v } | .b => { g with b := v } | .c => { g with c := v } | .d => { g with d := v }
  | .i => { g with i := v } | .j => { g with j := v } | .x => { g with x := v } | .y => { g with y := v }

/-- `R[n]` (00_scope.md R11). -/
def readReg (r : Reg) (s : State) : Byte := s.regs.get r

/-- `R[n] <- v` (00_scope.md R11): no register is hardwired (10_state.md R20). -/
def writeReg (r : Reg) (v : Byte) (s : State) : State := s.setRegs (s.regs.set r v)

/-- `pair(h, l) = (R[h] << 8) | R[l]` (10_state.md R22). -/
def pair (h l : Reg) (s : State) : Word := readReg h s ++ readReg l s

/-! ### Memory and ports -/

/-- `MemRead(addr, 1)` (20_memory.md R51). -/
def memRead (a : Word) (s : State) : Byte := s.mem.read a

/-- `MemWrite(addr, 1, v)` (20_memory.md R52). -/
def memWrite (a : Word) (v : Byte) (s : State) : State := s.setMem (s.mem.write a v)

/-- `PortRead(p)` (60_exceptions.md R263). -/
def portRead (p : Byte) (s : State) : Byte := lookup 0 s.portData p.toNat

/-- `PortWrite(p, v)` (60_exceptions.md R263): ownership is not checked. -/
def portWrite (p v : Byte) (s : State) : State := s.setPortData (store 0 s.portData p.toNat v)

/-- `port_owner[p]`; 0 means "unassigned" (10_state.md R36). -/
def ownerOf (p : Nat) (s : State) : DeviceId := lookup 0 s.portOwner p

/-! ### The program counter -/

/-- `pc <- target`: writes the PC and sets the jump marker (40_execution_cycle.md R108). -/
def jumpTo (target : Word) (s : State) : State := (s.setPc target).setJmp true

/-- `(pc + 4) mod 2^16`, the address of the next instruction (43_control.md R178). -/
def nextPc (s : State) : Word := s.pc + BitVec.ofNat 16 Config.instrBytes

/-! ### The stack -/

/-- `stack_addr(s) = (STACK_BASE + s) mod 2^16` (40_execution_cycle.md R114). -/
def stackAddr (sp : Byte) (P : Params := Config.params) : Word := P.stackBase + sp.setWidth 16

/-- `F.C <- 1`: a failed push or pop (40_execution_cycle.md R118). -/
def setCarry (s : State) : State := s.setFlags { s.flags with carry := true }

/-- `Push(v)` (40_execution_cycle.md R116). -/
def push (v : Byte) (s : State) (P : Params := Config.params) : State :=
  if s.full then setCarry s
  else (memWrite (stackAddr s.sp P) v s).setStack (s.sp + 1) (if s.sp + 1 = 0 then true else s.full)

/-- Whether the stack is empty (40_execution_cycle.md R115). -/
def stackEmpty (s : State) : Bool := decide (s.sp = 0) && !s.full

/-- `Pop()` (40_execution_cycle.md R117): the byte, if there is one, and the state after. -/
def pop (s : State) (P : Params := Config.params) : Option Byte × State :=
  if stackEmpty s then (none, setCarry s)
  else (some (memRead (stackAddr (s.sp - 1) P) s), s.setStack (s.sp - 1) false)

/-- `byte(some v) = v`, `byte(none) = 0x00` (43_control.md R179). -/
def byteOr0 (v : Option Byte) : Byte := v.getD 0x00

/-- `R[r] <- x` where the pop gave a byte; no write where it gave none (44_stack.md R191, 46_system.md R224). -/
def writeRegOpt (r : Reg) (v : Option Byte) (s : State) : State :=
  match v with
  | some x => writeReg r x s
  | none => s

/-- `Push(w[15:8]); Push(w[7:0])` (43_control.md R178): the high byte first. -/
def pushWord (w : Word) (s : State) (P : Params := Config.params) : State :=
  push (w.extractLsb' 0 8) (push (w.extractLsb' 8 8) s P) P

/-- `lo <- Pop(); hi <- Pop()` and the word `(byte(hi) << 8) | byte(lo)` (43_control.md R179). -/
def popWord (s : State) (P : Params := Config.params) : Word × State :=
  let lo := pop s P
  let hi := pop lo.2 P
  (byteOr0 hi.1 ++ byteOr0 lo.1, hi.2)

/-! ### Entering a handler and returning from it -/

/-- `(IVT_BASE + 2 * p) mod 2^16` (46_system.md R223). -/
def vectorAddr (p : Byte) (P : Params := Config.params) : Word := P.ivtBase + 2 * p.setWidth 16

/-- The handler address in IVT entry `p`: two bytes, big-endian (46_system.md R223, 60_exceptions.md R278). -/
def vectorOf (p : Byte) (s : State) (P : Params := Config.params) : Word :=
  memRead (vectorAddr p P) s ++ memRead (vectorAddr p P + 1) s

/-- Taking an interrupt, in hardware (60_exceptions.md R277) or by INT (46_system.md R222): push register I and then `ret`, high
byte first; clear F.I and F.H; go to the handler in IVT entry `p`. A failed push sets F.C and the rest goes on (R120). -/
def enterHandler (ret : Word) (p : Byte) (s : State) (P : Params := Config.params) : State :=
  let s1 := pushWord ret (push (readReg .i s) s P) P
  let s2 := s1.setFlags { s1.flags with interrupt := false, halt := false }
  jumpTo (vectorOf p s2 P) s2

/-- Returning from an interrupt (46_system.md R224): pop PC low, PC high and register I; set F.I; go to the popped PC. -/
def returnFromHandler (s : State) (P : Params := Config.params) : State :=
  let target := popWord s P
  let iv := pop target.2 P
  let s1 := writeRegOpt .i iv.1 iv.2
  jumpTo target.1 (s1.setFlags { s1.flags with interrupt := true })

/-- The prologue's `interrupt_service()` (60_exceptions.md R277): the handler of the port on the address bus is entered with the
PC of the next instruction not yet executed; `int_ready` drops. With `PROLOGUE_LOADS_I` (D20), I is then loaded. -/
def interruptService (s : State) (P : Params := Config.params) : State :=
  let s1 := enterHandler s.pc (s.addrBus.extractLsb' 0 8) s P
  let s2 := if P.prologueLoadsI then writeReg .i s.dataBus s1 else s1
  (s2.setIntReady false).setCpuState .instructionExec

end Sys2Proof.Machine
end

