-- ==== Sys2Proof/Machine/Operands.lean ====
section
/-! DEFINITION. The operand functions of the addressing modes (spec 40_execution_cycle.md R110 to R112). -/

namespace Sys2Proof.Machine

/-- A byte of memory as an operand: REG_RAM or RAMREG_IMMREG (R111). -/
inductive MemOperand where
  | ram (vx : Word)
  | ramreg (r1 r2 : Reg)
  deriving DecidableEq, Repr

/-- The effective address: `vx`, or `pair(r1, r2)` (R111). -/
def effectiveAddr (o : MemOperand) (s : State) : Word :=
  match o with
  | .ram vx => vx
  | .ramreg r1 r2 => pair r1 r2 s

/-- The second (source) byte operand (R110). -/
inductive Src8 where
  | reg (r2 : Reg)
  | imm (v1 : Byte)
  | mem (o : MemOperand)
  deriving DecidableEq, Repr

/-- `src8(d)` (R110). -/
def src8 (o : Src8) (s : State) : Byte :=
  match o with
  | .reg r2 => readReg r2 s
  | .imm v1 => v1
  | .mem m => memRead (effectiveAddr m s) s

/-- A 16-bit value operand, a jump target (R110). -/
inductive Target where
  | imm16 (vx : Word)
  | reg16 (r1 r2 : Reg)
  deriving DecidableEq, Repr

/-- `target16(d)` (R110). -/
def target16 (t : Target) (s : State) : Word :=
  match t with
  | .imm16 vx => vx
  | .reg16 r1 r2 => pair r1 r2 s

end Sys2Proof.Machine
end

