-- ==== Sys2Proof/Machine/Arith.lean ====
section
/-! DEFINITION. Arithmetic: ADD ADC SUB SBB INC DEC CMP (spec 41_alu_arith.md R130 to R138). One operation per mnemonic; its
forms differ only in their destination and source operands (R130). Every operand is read before the result is written (R112). -/

namespace Sys2Proof.Machine

/-- ADD and ADC on the register `dst` and the operand `src`, with carry in `c` (R131, R132): `s <- a + b + c`. -/
def addOp (c : Bool) (dst : Reg) (src : Src8) (s : State) : State :=
  let a := readReg dst s
  let b := src8 src s
  let res := a + b + (if c then 1 else 0)
  (writeReg dst res s).setFlags (s.flags.withCZN (carryOfAdd a b c) res)

/-- SUB and SBB on the register `dst` and the operand `src`, with borrow in `c` (R133, R134): `res <- a - b - c`. -/
def subOp (c : Bool) (dst : Reg) (src : Src8) (s : State) : State :=
  let a := readReg dst s
  let b := src8 src s
  let res := a - b - (if c then 1 else 0)
  (writeReg dst res s).setFlags (s.flags.withCZN (borrowOfSub a b c) res)

/-- INC (R135). -/
def incOp (r : Reg) (s : State) : State :=
  let a := readReg r s
  let res := a + 1
  (writeReg r res s).setFlags (s.flags.withCZN (decide (a = 0xFF)) res)

/-- DEC (R136). -/
def decOp (r : Reg) (s : State) : State :=
  let a := readReg r s
  let res := a - 1
  (writeReg r res s).setFlags (s.flags.withCZN (decide (a = 0x00)) res)

/-- CMP (R137): only E, S and F are written. -/
def cmpOp (dst : Reg) (src : Src8) (s : State) : State :=
  s.setFlags (s.flags.withCompare (readReg dst s) (src8 src s))

/-! ### The meanings, one per form -/

/-- ADC, REG (R132). -/
def execAdcReg (r1 r2 : Reg) (s : State) : Result := .next (addOp s.flags.carry r1 (.reg r2) s)

/-- ADC, REG_IMM8 (R132). -/
def execAdcRegImm8 (r1 : Reg) (v1 : Byte) (s : State) : Result := .next (addOp s.flags.carry r1 (.imm v1) s)

/-- ADC, REG_RAM (R132). -/
def execAdcRegRam (r1 : Reg) (vx : Word) (s : State) : Result := .next (addOp s.flags.carry r1 (.mem (.ram vx)) s)

/-- ADC, RAMREG_IMMREG (R132). -/
def execAdcRamreg (r1 r2 r3 : Reg) (s : State) : Result := .next (addOp s.flags.carry r3 (.mem (.ramreg r1 r2)) s)

/-- ADD, REG (R131). -/
def execAddReg (r1 r2 : Reg) (s : State) : Result := .next (addOp false r1 (.reg r2) s)

/-- ADD, REG_IMM8 (R131). -/
def execAddRegImm8 (r1 : Reg) (v1 : Byte) (s : State) : Result := .next (addOp false r1 (.imm v1) s)

/-- ADD, REG_RAM (R131). -/
def execAddRegRam (r1 : Reg) (vx : Word) (s : State) : Result := .next (addOp false r1 (.mem (.ram vx)) s)

/-- ADD, RAMREG_IMMREG (R131). -/
def execAddRamreg (r1 r2 r3 : Reg) (s : State) : Result := .next (addOp false r3 (.mem (.ramreg r1 r2)) s)

/-- CMP, REG (R137). -/
def execCmpReg (r1 r2 : Reg) (s : State) : Result := .next (cmpOp r1 (.reg r2) s)

/-- CMP, REG_IMM8 (R137). -/
def execCmpRegImm8 (r1 : Reg) (v1 : Byte) (s : State) : Result := .next (cmpOp r1 (.imm v1) s)

/-- CMP, REG_RAM (R137). -/
def execCmpRegRam (r1 : Reg) (vx : Word) (s : State) : Result := .next (cmpOp r1 (.mem (.ram vx)) s)

/-- CMP, RAMREG_IMMREG (R137). -/
def execCmpRamreg (r1 r2 r3 : Reg) (s : State) : Result := .next (cmpOp r3 (.mem (.ramreg r1 r2)) s)

/-- DEC, REG (R136). -/
def execDecReg (r1 : Reg) (s : State) : Result := .next (decOp r1 s)

/-- INC, REG (R135). -/
def execIncReg (r1 : Reg) (s : State) : Result := .next (incOp r1 s)

/-- SBB, REG (R134). -/
def execSbbReg (r1 r2 : Reg) (s : State) : Result := .next (subOp s.flags.carry r1 (.reg r2) s)

/-- SBB, REG_IMM8 (R134). -/
def execSbbRegImm8 (r1 : Reg) (v1 : Byte) (s : State) : Result := .next (subOp s.flags.carry r1 (.imm v1) s)

/-- SBB, REG_RAM (R134). -/
def execSbbRegRam (r1 : Reg) (vx : Word) (s : State) : Result := .next (subOp s.flags.carry r1 (.mem (.ram vx)) s)

/-- SBB, RAMREG_IMMREG (R134). -/
def execSbbRamreg (r1 r2 r3 : Reg) (s : State) : Result := .next (subOp s.flags.carry r3 (.mem (.ramreg r1 r2)) s)

/-- SUB, REG (R133). -/
def execSubReg (r1 r2 : Reg) (s : State) : Result := .next (subOp false r1 (.reg r2) s)

/-- SUB, REG_IMM8 (R133). -/
def execSubRegImm8 (r1 : Reg) (v1 : Byte) (s : State) : Result := .next (subOp false r1 (.imm v1) s)

/-- SUB, REG_RAM (R133). -/
def execSubRegRam (r1 : Reg) (vx : Word) (s : State) : Result := .next (subOp false r1 (.mem (.ram vx)) s)

/-- SUB, RAMREG_IMMREG (R133). -/
def execSubRamreg (r1 r2 r3 : Reg) (s : State) : Result := .next (subOp false r3 (.mem (.ramreg r1 r2)) s)

end Sys2Proof.Machine
end

