-- ==== Sys2Proof/Machine/Control.lean ====
section
/-! DEFINITION. Control transfer: JMP, the conditional jumps, CAL, RET (spec 43_control.md R170 to R180). -/

namespace Sys2Proof.Machine

/-- A jump taken when `taken` holds (R170 to R177); not taken, it does nothing and the tick advances the PC. -/
def jumpIf (taken : Bool) (t : Target) (s : State) : State := if taken then jumpTo (target16 t s) s else s

/-- CAL (R178): push the return address, high byte first, and jump. -/
def callOp (t : Target) (s : State) (P : Params := Config.params) : State :=
  jumpTo (target16 t s) (pushWord (nextPc s) s P)

/-- RET (R179): pop the low byte, then the high byte, and jump. -/
def retOp (s : State) (P : Params := Config.params) : State :=
  let target := popWord s P
  jumpTo target.1 target.2

/-! ### The meanings, one per form -/

/-- CAL, IMM16 (R178). -/
def execCalImm16 (vx : Word) (s : State) : Result := .next (callOp (.imm16 vx) s)

/-- CAL, REG16 (R178). -/
def execCalReg16 (r1 r2 : Reg) (s : State) : Result := .next (callOp (.reg16 r1 r2) s)

/-- JMC, IMM16 (R172). -/
def execJmcImm16 (vx : Word) (s : State) : Result := .next (jumpIf s.flags.carry (.imm16 vx) s)

/-- JMC, REG16 (R172). -/
def execJmcReg16 (r1 r2 : Reg) (s : State) : Result := .next (jumpIf s.flags.carry (.reg16 r1 r2) s)

/-- JME, IMM16 (R173). -/
def execJmeImm16 (vx : Word) (s : State) : Result := .next (jumpIf s.flags.equal (.imm16 vx) s)

/-- JME, REG16 (R173). -/
def execJmeReg16 (r1 r2 : Reg) (s : State) : Result := .next (jumpIf s.flags.equal (.reg16 r1 r2) s)

/-- JMF, IMM16 (R174). -/
def execJmfImm16 (vx : Word) (s : State) : Result := .next (jumpIf s.flags.inferior (.imm16 vx) s)

/-- JMF, REG16 (R174). -/
def execJmfReg16 (r1 r2 : Reg) (s : State) : Result := .next (jumpIf s.flags.inferior (.reg16 r1 r2) s)

/-- JMN, IMM16 (R175). -/
def execJmnImm16 (vx : Word) (s : State) : Result := .next (jumpIf s.flags.negative (.imm16 vx) s)

/-- JMN, REG16 (R175). -/
def execJmnReg16 (r1 r2 : Reg) (s : State) : Result := .next (jumpIf s.flags.negative (.reg16 r1 r2) s)

/-- JMP, IMM16 (R171). -/
def execJmpImm16 (vx : Word) (s : State) : Result := .next (jumpTo (target16 (.imm16 vx) s) s)

/-- JMP, REG16 (R171). -/
def execJmpReg16 (r1 r2 : Reg) (s : State) : Result := .next (jumpTo (target16 (.reg16 r1 r2) s) s)

/-- JMS, IMM16 (R176). -/
def execJmsImm16 (vx : Word) (s : State) : Result := .next (jumpIf s.flags.superior (.imm16 vx) s)

/-- JMS, REG16 (R176). -/
def execJmsReg16 (r1 r2 : Reg) (s : State) : Result := .next (jumpIf s.flags.superior (.reg16 r1 r2) s)

/-- JMZ, IMM16 (R177). -/
def execJmzImm16 (vx : Word) (s : State) : Result := .next (jumpIf s.flags.zero (.imm16 vx) s)

/-- JMZ, REG16 (R177). -/
def execJmzReg16 (r1 r2 : Reg) (s : State) : Result := .next (jumpIf s.flags.zero (.reg16 r1 r2) s)

/-- RET, NONE (R179). -/
def execRet (s : State) : Result := .next (retOp s)

end Sys2Proof.Machine
end

