-- ==== Sys2Proof/Machine/DataIo.lean ====
section
/-! DEFINITION. Data transfer and I/O: MOV LOD STR IN OUT (spec 45_memory_io.md R200 to R207). None writes a flag. -/

namespace Sys2Proof.Machine

/-- MOV and LOD: the operand goes to the register, as it is (R200, R202). -/
def moveOp (dst : Reg) (src : Src8) (s : State) : State := writeReg dst (src8 src s) s

/-- STR: the register goes to memory (R203). -/
def storeOp (o : MemOperand) (r : Reg) (s : State) : State := memWrite (effectiveAddr o s) (readReg r s) s

/-- IN from port `p` (R206). -/
def inOp (r : Reg) (p : Byte) (s : State) : State := writeReg r (portRead p s) s

/-! ### The meanings, one per form -/

/-- IN, REG (R206). -/
def execInReg (r1 r2 : Reg) (s : State) : Result := .next (inOp r1 (readReg r2 s) s)

/-- IN, REG_IMM8 (R206). -/
def execInRegImm8 (r1 : Reg) (v1 : Byte) (s : State) : Result := .next (inOp r1 v1 s)

/-- OUT, REG (R207). -/
def execOutReg (r1 r2 : Reg) (s : State) : Result := .next (portWrite (readReg r1 s) (readReg r2 s) s)

/-- OUT, REG_IMM8 (R207). -/
def execOutRegImm8 (r1 : Reg) (v1 : Byte) (s : State) : Result := .next (portWrite v1 (readReg r1 s) s)

/-- LOD, REG_RAM (R202). -/
def execLodRegRam (r1 : Reg) (vx : Word) (s : State) : Result := .next (moveOp r1 (.mem (.ram vx)) s)

/-- LOD, RAMREG_IMMREG (R202). -/
def execLodRamreg (r1 r2 r3 : Reg) (s : State) : Result := .next (moveOp r3 (.mem (.ramreg r1 r2)) s)

/-- MOV, REG (R200). -/
def execMovReg (r1 r2 : Reg) (s : State) : Result := .next (moveOp r1 (.reg r2) s)

/-- MOV, REG_IMM8 (R200). -/
def execMovRegImm8 (r1 : Reg) (v1 : Byte) (s : State) : Result := .next (moveOp r1 (.imm v1) s)

/-- STR, REG_RAM (R203). -/
def execStrRegRam (r1 : Reg) (vx : Word) (s : State) : Result := .next (storeOp (.ram vx) r1 s)

/-- STR, RAMREG_IMMREG (R203). -/
def execStrRamreg (r1 r2 r3 : Reg) (s : State) : Result := .next (storeOp (.ramreg r1 r2) r3 s)

end Sys2Proof.Machine
end

