-- ==== Sys2Proof/Machine/FlagOps.lean ====
section
/-! DEFINITION. The flag instructions (spec 47_flag_ops.md R235 to R250): each writes one flag and nothing else. They are the
spec's general knowledge (R249, log entry 11) and exist while `HAS_FLAG_OPS` is true. -/

namespace Sys2Proof.Machine

/-- The state with its flags changed by `f`. -/
def flagOp (f : Flags → Flags) (s : State) : State := s.setFlags (f s.flags)

/-! ### The meanings, one per form -/

/-- CLC, NONE (R235). -/
def execClc (s : State) : Result := .next (flagOp (fun f => { f with carry := false }) s)

/-- CLE, NONE (R236). -/
def execCle (s : State) : Result := .next (flagOp (fun f => { f with equal := false }) s)

/-- CLI, NONE (R238). -/
def execCli (s : State) : Result := .next (flagOp (fun f => { f with interrupt := false }) s)

/-- CLN, NONE (R239). -/
def execCln (s : State) : Result := .next (flagOp (fun f => { f with negative := false }) s)

/-- CLS, NONE (R240). -/
def execCls (s : State) : Result := .next (flagOp (fun f => { f with superior := false }) s)

/-- CLZ, NONE (R241). -/
def execClz (s : State) : Result := .next (flagOp (fun f => { f with zero := false }) s)

/-- CLF, NONE (R237). -/
def execClf (s : State) : Result := .next (flagOp (fun f => { f with inferior := false }) s)

/-- STC, NONE (R242). -/
def execStc (s : State) : Result := .next (flagOp (fun f => { f with carry := true }) s)

/-- STE, NONE (R243). -/
def execSte (s : State) : Result := .next (flagOp (fun f => { f with equal := true }) s)

/-- STF, NONE (R244). -/
def execStf (s : State) : Result := .next (flagOp (fun f => { f with inferior := true }) s)

/-- STI, NONE (R245). -/
def execSti (s : State) : Result := .next (flagOp (fun f => { f with interrupt := true }) s)

/-- STN, NONE (R246). -/
def execStn (s : State) : Result := .next (flagOp (fun f => { f with negative := true }) s)

/-- STS, NONE (R247). -/
def execSts (s : State) : Result := .next (flagOp (fun f => { f with superior := true }) s)

/-- STZ, NONE (R248). -/
def execStz (s : State) : Result := .next (flagOp (fun f => { f with zero := true }) s)

end Sys2Proof.Machine
end

