-- ==== Sys2Proof/Machine/Logic.lean ====
section
/-! DEFINITION. Logic and shifts: AND OR XOR NOT SHL SHR (spec 42_alu_logic.md R150 to R156). AND, OR, XOR and NOT do not
write F.C (R150); SHR does not write F.N (R156). -/

namespace Sys2Proof.Machine

/-- A logic operation `f` on the register `dst` and the operand `src` (R150 to R153). -/
def logicOp (f : Byte → Byte → Byte) (dst : Reg) (src : Src8) (s : State) : State :=
  let res := f (readReg dst s) (src8 src s)
  (writeReg dst res s).setFlags (s.flags.withZN res)

/-- NOT (R154). -/
def notOp (r : Reg) (s : State) : State :=
  let res := ~~~(readReg r s)
  (writeReg r res s).setFlags (s.flags.withZN res)

/-- SHL by one (R155): F.C takes the bit shifted out. -/
def shlOp (r : Reg) (s : State) : State :=
  let a := readReg r s
  let res := a <<< 1
  (writeReg r res s).setFlags (s.flags.withCZN (a.getLsbD 7) res)

/-- SHR by one, logical (R156): F.C takes the bit shifted out, F.N is not written. -/
def shrOp (r : Reg) (s : State) : State :=
  let a := readReg r s
  let res := a >>> 1
  (writeReg r res s).setFlags (s.flags.withCZ (a.getLsbD 0) res)

/-! ### The meanings, one per form -/

/-- AND, REG (R151). -/
def execAndReg (r1 r2 : Reg) (s : State) : Result := .next (logicOp (· &&& ·) r1 (.reg r2) s)

/-- AND, REG_IMM8 (R151). -/
def execAndRegImm8 (r1 : Reg) (v1 : Byte) (s : State) : Result := .next (logicOp (· &&& ·) r1 (.imm v1) s)

/-- AND, REG_RAM (R151). -/
def execAndRegRam (r1 : Reg) (vx : Word) (s : State) : Result := .next (logicOp (· &&& ·) r1 (.mem (.ram vx)) s)

/-- AND, RAMREG_IMMREG (R151). -/
def execAndRamreg (r1 r2 r3 : Reg) (s : State) : Result := .next (logicOp (· &&& ·) r3 (.mem (.ramreg r1 r2)) s)

/-- NOT, REG (R154). -/
def execNotReg (r1 : Reg) (s : State) : Result := .next (notOp r1 s)

/-- OR, REG (R152). -/
def execOrReg (r1 r2 : Reg) (s : State) : Result := .next (logicOp (· ||| ·) r1 (.reg r2) s)

/-- OR, REG_IMM8 (R152). -/
def execOrRegImm8 (r1 : Reg) (v1 : Byte) (s : State) : Result := .next (logicOp (· ||| ·) r1 (.imm v1) s)

/-- OR, REG_RAM (R152). -/
def execOrRegRam (r1 : Reg) (vx : Word) (s : State) : Result := .next (logicOp (· ||| ·) r1 (.mem (.ram vx)) s)

/-- OR, RAMREG_IMMREG (R152). -/
def execOrRamreg (r1 r2 r3 : Reg) (s : State) : Result := .next (logicOp (· ||| ·) r3 (.mem (.ramreg r1 r2)) s)

/-- SHL, REG (R155). -/
def execShlReg (r1 : Reg) (s : State) : Result := .next (shlOp r1 s)

/-- SHR, REG (R156). -/
def execShrReg (r1 : Reg) (s : State) : Result := .next (shrOp r1 s)

/-- XOR, REG (R153). -/
def execXorReg (r1 r2 : Reg) (s : State) : Result := .next (logicOp (· ^^^ ·) r1 (.reg r2) s)

/-- XOR, REG_IMM8 (R153). -/
def execXorRegImm8 (r1 : Reg) (v1 : Byte) (s : State) : Result := .next (logicOp (· ^^^ ·) r1 (.imm v1) s)

/-- XOR, REG_RAM (R153). -/
def execXorRegRam (r1 : Reg) (vx : Word) (s : State) : Result := .next (logicOp (· ^^^ ·) r1 (.mem (.ram vx)) s)

/-- XOR, RAMREG_IMMREG (R153). -/
def execXorRamreg (r1 r2 r3 : Reg) (s : State) : Result := .next (logicOp (· ^^^ ·) r3 (.mem (.ramreg r1 r2)) s)

end Sys2Proof.Machine
end

