-- ==== Sys2Proof/Machine/Stack.lean ====
section
/-! DEFINITION. Stack instructions: PSH POP (spec 44_stack.md R190, R191). -/

namespace Sys2Proof.Machine

/-- POP (R191): where the stack is empty, no register is written. -/
def popOp (r : Reg) (s : State) (P : Params := Config.params) : State :=
  let v := pop s P
  writeRegOpt r v.1 v.2

/-! ### The meanings, one per form -/

/-- POP, REG (R191). -/
def execPopReg (r1 : Reg) (s : State) : Result := .next (popOp r1 s)

/-- PSH, REG (R190). -/
def execPshReg (r1 : Reg) (s : State) : Result := .next (push (readReg r1 s) s)

/-- PSH, IMM8 (R190). -/
def execPshImm8 (v1 : Byte) (s : State) : Result := .next (push v1 s)

end Sys2Proof.Machine
end

