-- ==== Sys2Proof/Machine/System.lean ====
section
/-! DEFINITION. System instructions: NOP HLT INT IRT (spec 46_system.md R220 to R224). None is privileged (60_exceptions.md
R290). INT and IRT are the shared operations `enterHandler` and `returnFromHandler` of Machine/Ops.lean. -/

namespace Sys2Proof.Machine

/-- HLT (R221): sets F.H, and F.I so that an interrupt can still wake the CPU. -/
def haltOp (s : State) : State := s.setFlags { s.flags with halt := true, interrupt := true }

/-! ### The meanings, one per form -/

/-- NOP, NONE (R220). -/
def execNop (s : State) : Result := .next s

/-- HLT, NONE (R221). -/
def execHlt (s : State) : Result := .next (haltOp s)

/-- INT, IMM8 (R222). -/
def execIntImm8 (v1 : Byte) (s : State) : Result := .next (enterHandler (nextPc s) v1 s)

/-- IRT, NONE (R224). -/
def execIrt (s : State) : Result := .next (returnFromHandler s)

end Sys2Proof.Machine
end

