-- ==== Sys2Proof/Machine/Dispatch.lean ====
section
/-! DEFINITION. The Execute step: "a large dispatch over (opcode, addressing mode) pairs" (spec 40_execution_cycle.md R105). The
PC still holds the instruction's address; the tick advances it afterwards (R107). -/

namespace Sys2Proof.Machine

def exec (i : Instr) (s : State) : Host.Outcome State Fault Refusal :=
  match i with
  | .nop => Sys2Proof.Machine.execNop s
  | .adcReg r1 r2 => Sys2Proof.Machine.execAdcReg r1 r2 s
  | .adcRegImm8 r1 v1 => Sys2Proof.Machine.execAdcRegImm8 r1 v1 s
  | .adcRegRam r1 vx => Sys2Proof.Machine.execAdcRegRam r1 vx s
  | .adcRamreg r1 r2 r3 => Sys2Proof.Machine.execAdcRamreg r1 r2 r3 s
  | .addReg r1 r2 => Sys2Proof.Machine.execAddReg r1 r2 s
  | .addRegImm8 r1 v1 => Sys2Proof.Machine.execAddRegImm8 r1 v1 s
  | .addRegRam r1 vx => Sys2Proof.Machine.execAddRegRam r1 vx s
  | .addRamreg r1 r2 r3 => Sys2Proof.Machine.execAddRamreg r1 r2 r3 s
  | .andReg r1 r2 => Sys2Proof.Machine.execAndReg r1 r2 s
  | .andRegImm8 r1 v1 => Sys2Proof.Machine.execAndRegImm8 r1 v1 s
  | .andRegRam r1 vx => Sys2Proof.Machine.execAndRegRam r1 vx s
  | .andRamreg r1 r2 r3 => Sys2Proof.Machine.execAndRamreg r1 r2 r3 s
  | .calImm16 vx => Sys2Proof.Machine.execCalImm16 vx s
  | .calReg16 r1 r2 => Sys2Proof.Machine.execCalReg16 r1 r2 s
  | .clc => Sys2Proof.Machine.execClc s
  | .cle => Sys2Proof.Machine.execCle s
  | .cli => Sys2Proof.Machine.execCli s
  | .cln => Sys2Proof.Machine.execCln s
  | .cls => Sys2Proof.Machine.execCls s
  | .clz => Sys2Proof.Machine.execClz s
  | .clf => Sys2Proof.Machine.execClf s
  | .cmpReg r1 r2 => Sys2Proof.Machine.execCmpReg r1 r2 s
  | .cmpRegImm8 r1 v1 => Sys2Proof.Machine.execCmpRegImm8 r1 v1 s
  | .cmpRegRam r1 vx => Sys2Proof.Machine.execCmpRegRam r1 vx s
  | .cmpRamreg r1 r2 r3 => Sys2Proof.Machine.execCmpRamreg r1 r2 r3 s
  | .decReg r1 => Sys2Proof.Machine.execDecReg r1 s
  | .hlt => Sys2Proof.Machine.execHlt s
  | .inReg r1 r2 => Sys2Proof.Machine.execInReg r1 r2 s
  | .inRegImm8 r1 v1 => Sys2Proof.Machine.execInRegImm8 r1 v1 s
  | .outReg r1 r2 => Sys2Proof.Machine.execOutReg r1 r2 s
  | .outRegImm8 r1 v1 => Sys2Proof.Machine.execOutRegImm8 r1 v1 s
  | .incReg r1 => Sys2Proof.Machine.execIncReg r1 s
  | .intImm8 v1 => Sys2Proof.Machine.execIntImm8 v1 s
  | .irt => Sys2Proof.Machine.execIrt s
  | .jmcImm16 vx => Sys2Proof.Machine.execJmcImm16 vx s
  | .jmcReg16 r1 r2 => Sys2Proof.Machine.execJmcReg16 r1 r2 s
  | .jmeImm16 vx => Sys2Proof.Machine.execJmeImm16 vx s
  | .jmeReg16 r1 r2 => Sys2Proof.Machine.execJmeReg16 r1 r2 s
  | .jmfImm16 vx => Sys2Proof.Machine.execJmfImm16 vx s
  | .jmfReg16 r1 r2 => Sys2Proof.Machine.execJmfReg16 r1 r2 s
  | .jmnImm16 vx => Sys2Proof.Machine.execJmnImm16 vx s
  | .jmnReg16 r1 r2 => Sys2Proof.Machine.execJmnReg16 r1 r2 s
  | .jmpImm16 vx => Sys2Proof.Machine.execJmpImm16 vx s
  | .jmpReg16 r1 r2 => Sys2Proof.Machine.execJmpReg16 r1 r2 s
  | .jmsImm16 vx => Sys2Proof.Machine.execJmsImm16 vx s
  | .jmsReg16 r1 r2 => Sys2Proof.Machine.execJmsReg16 r1 r2 s
  | .jmzImm16 vx => Sys2Proof.Machine.execJmzImm16 vx s
  | .jmzReg16 r1 r2 => Sys2Proof.Machine.execJmzReg16 r1 r2 s
  | .lodRegRam r1 vx => Sys2Proof.Machine.execLodRegRam r1 vx s
  | .lodRamreg r1 r2 r3 => Sys2Proof.Machine.execLodRamreg r1 r2 r3 s
  | .movReg r1 r2 => Sys2Proof.Machine.execMovReg r1 r2 s
  | .movRegImm8 r1 v1 => Sys2Proof.Machine.execMovRegImm8 r1 v1 s
  | .notReg r1 => Sys2Proof.Machine.execNotReg r1 s
  | .orReg r1 r2 => Sys2Proof.Machine.execOrReg r1 r2 s
  | .orRegImm8 r1 v1 => Sys2Proof.Machine.execOrRegImm8 r1 v1 s
  | .orRegRam r1 vx => Sys2Proof.Machine.execOrRegRam r1 vx s
  | .orRamreg r1 r2 r3 => Sys2Proof.Machine.execOrRamreg r1 r2 r3 s
  | .popReg r1 => Sys2Proof.Machine.execPopReg r1 s
  | .pshReg r1 => Sys2Proof.Machine.execPshReg r1 s
  | .pshImm8 v1 => Sys2Proof.Machine.execPshImm8 v1 s
  | .ret => Sys2Proof.Machine.execRet s
  | .sbbReg r1 r2 => Sys2Proof.Machine.execSbbReg r1 r2 s
  | .sbbRegImm8 r1 v1 => Sys2Proof.Machine.execSbbRegImm8 r1 v1 s
  | .sbbRegRam r1 vx => Sys2Proof.Machine.execSbbRegRam r1 vx s
  | .sbbRamreg r1 r2 r3 => Sys2Proof.Machine.execSbbRamreg r1 r2 r3 s
  | .shlReg r1 => Sys2Proof.Machine.execShlReg r1 s
  | .shrReg r1 => Sys2Proof.Machine.execShrReg r1 s
  | .stc => Sys2Proof.Machine.execStc s
  | .ste => Sys2Proof.Machine.execSte s
  | .stf => Sys2Proof.Machine.execStf s
  | .sti => Sys2Proof.Machine.execSti s
  | .stn => Sys2Proof.Machine.execStn s
  | .strRegRam r1 vx => Sys2Proof.Machine.execStrRegRam r1 vx s
  | .strRamreg r1 r2 r3 => Sys2Proof.Machine.execStrRamreg r1 r2 r3 s
  | .sts => Sys2Proof.Machine.execSts s
  | .stz => Sys2Proof.Machine.execStz s
  | .subReg r1 r2 => Sys2Proof.Machine.execSubReg r1 r2 s
  | .subRegImm8 r1 v1 => Sys2Proof.Machine.execSubRegImm8 r1 v1 s
  | .subRegRam r1 vx => Sys2Proof.Machine.execSubRegRam r1 vx s
  | .subRamreg r1 r2 r3 => Sys2Proof.Machine.execSubRamreg r1 r2 r3 s
  | .xorReg r1 r2 => Sys2Proof.Machine.execXorReg r1 r2 s
  | .xorRegImm8 r1 v1 => Sys2Proof.Machine.execXorRegImm8 r1 v1 s
  | .xorRegRam r1 vx => Sys2Proof.Machine.execXorRegRam r1 vx s
  | .xorRamreg r1 r2 r3 => Sys2Proof.Machine.execXorRamreg r1 r2 r3 s

end Sys2Proof.Machine
end

