-- ==== Sys2Proof/Machine/Iod.lean ====
section
/-! DEFINITION. The I/O Controller (spec 60_exceptions.md R262 to R272): the interrupt queue, its half of the tick, and the
allocation of port blocks. -/

namespace Sys2Proof.Machine

/-! ### The interrupt queue -/

/-- `triggerInterrupt(p)` (R268): the port's data is captured at the call; a full queue drops the record silently. -/
def triggerInterrupt (p : Byte) (s : State) (P : Params := Config.params) : State :=
  if s.irqQueue.length < P.irqQueueCapacity then
    s.setIrqQueue (s.irqQueue ++ [{ port := p, data := portRead p s }])
  else s

/-- Delivery (R270, R271): the front record leaves the queue for the buses; an empty queue leaves the buses (R272). -/
def deliver (s : State) : State :=
  match s.irqQueue with
  | [] => s
  | r :: rest => (s.setIrqQueue rest).setBuses (r.port.setWidth 16) r.data

/-- `iod_tick()` (R270). -/
def iodTick (s : State) : State :=
  if s.intReady then deliver (s.setIntRequest false)
  else s.setIntRequest (!s.irqQueue.isEmpty)

/-! ### Port blocks -/

/-- Whether the `count` ports from `first` on are all unassigned (R264). -/
def blockFree (first count : Nat) (s : State) : Bool := (List.range count).all fun k => ownerOf (first + k) s == 0

/-- The least start of a free block of `count` ports inside the table (R264). -/
def firstFreeBlock (count : Nat) (s : State) : Option Nat :=
  (List.range Config.portCount).find? fun b => decide (b + count ≤ Config.portCount) && blockFree b count s

/-- The owner table with the `count` ports from `first` on owned by `dev` (R264). -/
def claimBlock (dev : DeviceId) (first : Nat) : Nat → PortTable DeviceId → PortTable DeviceId
  | 0, t => t
  | k + 1, t => store 0 (claimBlock dev first k t) (first + k) dev

/-- `requestPortsConnexions(deviceId, count)` (R264, R266): the ports of the sockets, in increasing order, and the state after;
no ports and no change where the request fails. -/
def requestPorts (dev : DeviceId) (count : Nat) (s : State) : List Byte × State :=
  if dev = 0 ∨ count = 0 ∨ count > Config.portCount then ([], s)
  else
    match firstFreeBlock count s with
    | none => ([], s)
    | some b =>
      ((List.range count).map fun k => BitVec.ofNat 8 (b + k), s.setPortOwner (claimBlock dev b count s.portOwner))

end Sys2Proof.Machine
end

