-- ==== Sys2Proof/Machine/Cycle.lean ====
section
/-! DEFINITION. The tick (spec 40_execution_cycle.md R100 to R109): fetch, decode, execute, the PC advance, interrupt entry and
service, and the Motherboard's order. Beside the configuration argument, a tick takes the function that runs an instruction:
`exec`, unless Machine/Parametric.lean gives the one of other parameter values. -/

namespace Sys2Proof.Machine

/-- The bytes of the instruction at `a`, in increasing address order, every address modulo 2^16 (R103). -/
def fetchBytes (a : Word) (s : State) : List Byte :=
  (List.range Config.instrBytes).map fun k => memRead (a + BitVec.ofNat 16 k) s

/-- `Fetch32(a)`: those bytes, big-endian (R103). -/
def fetch32 (a : Word) (s : State) : Dword := wordOfBytes (fetchBytes a s)

/-- `ir <- Fetch32(pc)` and `mode_view <- d.mode` (R101, R103, R104). -/
def fetchInstr (s : State) (P : Params := Config.params) : State :=
  s.setFetched (fetch32 s.pc s) (modeField (fetch32 s.pc s) P.layout)

/-- `Execute(d)` (R105): a supported form runs; an unmatched word does nothing (30_encoding.md R84). -/
def executeDecoded (d : Decoded) (s : State) (run : Instr → State → Result := exec) : Result :=
  match d with
  | .form i => run i s
  | .unmatched _ => .next s

/-- The PC advance after Execute (R107). -/
def advancePc (s : State) : State := if s.jmp then s else s.setPc (nextPc s)

/-- `jmp <- 0` (R106). -/
def clearJmp (s : State) : State := s.setJmp false

/-- Fetch, decode, execute, advance (R101). -/
def runInstr (s : State) (P : Params := Config.params) (run : Instr → State → Result := exec) : Result :=
  let s1 := fetchInstr s P
  onNext (executeDecoded (decode s1.ir P) s1 run) advancePc

/-- Entry, tick 1 (60_exceptions.md R275). -/
def enterManagement (s : State) : State := (s.setCpuState .interruptManagement).setIntReady true

/-- `cpu_tick()` (R101). The interrupt test comes before the HALT test (60_exceptions.md R276). -/
def cpuTick (s : State) (P : Params := Config.params) (run : Instr → State → Result := exec) : Result :=
  match s.cpuState with
  | .instructionExec =>
    if s.flags.interrupt && s.intRequest then .next (clearJmp (enterManagement s))
    else if s.flags.halt then .next (clearJmp s)
    else onNext (runInstr s P run) clearJmp
  | .interruptManagement =>
    if s.intRequest then .next (clearJmp s) else .next (clearJmp (interruptService s P))

/-- One Motherboard tick: `cpu_tick()`, then `iod_tick()` (R100). -/
def motherboardTick (s : State) (P : Params := Config.params) (run : Instr → State → Result := exec) : Result :=
  onNext (cpuTick s P run) iodTick

/-- The bytes from `a` on, in increasing address order, every address modulo 2^16. -/
def placeBytes (a : Word) : List Byte → State → State
  | [], s => s
  | b :: rest, s => placeBytes (a + 1) rest (memWrite a b s)

/-- The instruction word `w` at `a`, big-endian. -/
def placeWord (a : Word) (w : Dword) (s : State) : State := placeBytes a (bytesOfWord w) s

/-- What makes the very next CPU tick fetch (R101): instruction execution, not halted, no interrupt taken first. -/
def readyToFetch (s : State) : State :=
  ((s.setCpuState .instructionExec).setFlags { s.flags with halt := false }).setIntRequest
    (s.intRequest && !s.flags.interrupt)

end Sys2Proof.Machine
end

