-- ==== Sys2Proof/Machine/Step.lean ====
section
/-! DEFINITION. One step of the machine: one Motherboard tick (spec 40_execution_cycle.md R100, 60_exceptions.md R287). The
environment acts between steps (Machine/Environment.lean, log entry 6). -/

namespace Sys2Proof.Machine

/-- One step: one Motherboard tick (R100, R287). -/
def step (s : State) : Host.Outcome State Fault Refusal := motherboardTick s

/-- `s` with the word of an opcode table row stored where the next step fetches, and in a condition to fetch it (log entries 1
and 20). -/
def State.withFetchWord (s : State) (nbits w : Nat) : State := placeWord s.pc (tableWord nbits w) (readyToFetch s)

end Sys2Proof.Machine
end

