-- ==== Sys2Proof/Machine/Environment.lean ====
section
/-! DEFINITION. The environment: the operations by which the host and the peripherals act on the core (spec 60_exceptions.md
R282 to R287, 70_reset_and_hazards.md R300 to R304, 20_memory.md R53). They act between ticks (`ENV_INTERLEAVE` =
`tick_boundary`, 20_memory.md R58, log entries 5 and 6). A session is what they act on, from before the first `init` on. Beside
the configuration argument, an action takes the tick: `step`, unless Machine/Parametric.lean gives another. -/

namespace Sys2Proof.Machine

/-! ### Loading and reset -/

/-- `load(image)`: the whole memory, or a failure that writes nothing (20_memory.md R53). -/
def load (image : List Byte) (s : State) : Option State :=
  if image.length = Config.memSize then some (s.setMem (Memory.ofImage image)) else none

/-- `cpu_reset()` (70_reset_and_hazards.md R302). -/
def cpuReset (s : State) (P : Params := Config.params) : State :=
  { s with
    regs := State.reset.regs
    flags := State.reset.flags
    pc := P.programStart
    sp := 0
    full := false
    jmp := false
    cpuState := .instructionExec
    intReady := false
    ir := 0
    modeView := 0 }

/-- IOD reset: the port owners are kept (70_reset_and_hazards.md R303). -/
def iodReset (s : State) : State :=
  { s with irqQueue := [], intRequest := false, addrBus := 0, dataBus := 0, portData := [] }

/-- `init(binaryImage)` of the Motherboard: load, CPU reset, IOD reset; `none` is failure, which changes nothing
(70_reset_and_hazards.md R300, R301). -/
def initBoard (image : List Byte) (s : State) (P : Params := Config.params) : Option State :=
  (load image s).map fun s1 => iodReset (cpuReset s1 P)

/-! ### The snapshot -/

/-- What the introspection surface shows (60_exceptions.md R284): exactly these, and no other state (D45). -/
structure Snapshot where
  pc : Word
  ir : Dword
  modeView : BitVec Config.modeBits
  regs : Regs
  flags : Flags
  sp : Byte
  addrBus : Word
  dataBus : Byte
  deriving DecidableEq, Repr

/-- `snapshot()` (60_exceptions.md R284). -/
def snapshot (s : State) : Snapshot where
  pc := s.pc
  ir := s.ir
  modeView := s.modeView
  regs := s.regs
  flags := s.flags
  sp := s.sp
  addrBus := s.addrBus
  dataBus := s.dataBus

/-! ### Duties -/

/-- Whether device `dev` owns port `p`, so that it holds the port's socket (60_exceptions.md R265, R286). -/
def ownsPort (dev : DeviceId) (p : Byte) (s : State) : Bool := dev != 0 && ownerOf p.toNat s == dev

/-- Whether `p` is the first port of device `dev`: the least it owns (60_exceptions.md R286, log entry 8). -/
def isFirstPort (dev : DeviceId) (p : Byte) (s : State) : Bool :=
  ownsPort dev p s && (List.range p.toNat).all fun q => ownerOf q s != dev

/-! ### Sessions -/

/-- The environment's operations (60_exceptions.md R283); an access to a port names the device whose socket it uses. -/
inductive EnvAction where
  | init (image : List Byte)
  | tick
  | snapshot
  | readRam (a : Word)
  | writeRam (a : Word) (v : Byte)
  | getPortData (dev : DeviceId) (p : Byte)
  | setPortData (dev : DeviceId) (p : Byte) (v : Byte)
  | requestPorts (dev : DeviceId) (count : Nat)
  | triggerInterrupt (dev : DeviceId) (p : Byte)
  deriving DecidableEq, Repr

/-- What an operation answers. -/
inductive EnvReply where
  | done
  /-- A failed `init` (70_reset_and_hazards.md R301). -/
  | failed
  | byte (v : Byte)
  /-- The ports of the sockets; the empty list is a failed request (60_exceptions.md R266). -/
  | sockets (ports : List Byte)
  | snapshot (view : Snapshot)
  deriving DecidableEq, Repr

/-- A session. Before the first successful `init` "the core has no defined state" (70_reset_and_hazards.md R304) but for the port
owners, which are 0 at session start (10_state.md R39) and which peripherals may request "before or after" (R306, log entry 9). -/
inductive Session where
  | beforeInit (portOwner : PortTable DeviceId)
  | running (s : State)
  deriving DecidableEq, Repr

/-- The session's start: no port is owned (10_state.md R39). -/
def Session.start : Session := .beforeInit []

/-- What an action leaves and answers. -/
abbrev SessionResult := Host.Outcome (Session × EnvReply) Fault Refusal

/-- One operation on a running core; an access that breaks a duty is refused (60_exceptions.md R286, U14). -/
def actRunning (act : EnvAction) (s : State) (P : Params := Config.params) (tick : State → Result := step) : SessionResult :=
  match act with
  | .init image =>
    match initBoard image s P with
    | some t => .next (.running t, .done)
    | none => .next (.running s, .failed)
  | .tick =>
    match tick s with
    | .next t => .next (.running t, .done)
    | .fault r => .fault r
    | .refused r => .refused r
  | .snapshot => .next (.running s, .snapshot (snapshot s))
  | .readRam a => .next (.running s, .byte (memRead a s))
  | .writeRam a v => .next (.running (memWrite a v s), .done)
  | .getPortData dev p => if ownsPort dev p s then .next (.running s, .byte (portRead p s)) else .refused .dutyBroken
  | .setPortData dev p v => if ownsPort dev p s then .next (.running (portWrite p v s), .done) else .refused .dutyBroken
  | .requestPorts dev count => .next (.running (requestPorts dev count s).2, .sockets (requestPorts dev count s).1)
  | .triggerInterrupt dev p =>
    if isFirstPort dev p s then .next (.running (triggerInterrupt p s P), .done) else .refused .dutyBroken

/-- One operation before the first successful `init`: only `init` and port requests are defined (log entry 9). -/
def actBeforeInit (act : EnvAction) (owners : PortTable DeviceId) (P : Params := Config.params) : SessionResult :=
  match act with
  | .init image =>
    match initBoard image (State.reset.setPortOwner owners) P with
    | some t => .next (.running t, .done)
    | none => .next (.beforeInit owners, .failed)
  | .requestPorts dev count =>
    let answer := requestPorts dev count (State.reset.setPortOwner owners)
    .next (.beforeInit answer.2.portOwner, .sockets answer.1)
  | .tick | .snapshot | .readRam _ | .writeRam _ _ | .getPortData _ _ | .setPortData _ _ _ | .triggerInterrupt _ _ =>
    .refused .beforeInit

/-- One operation of the environment (60_exceptions.md R283). -/
def Session.act (act : EnvAction) (x : Session) (P : Params := Config.params) (tick : State → Result := step) : SessionResult :=
  match x with
  | .beforeInit owners => actBeforeInit act owners P
  | .running s => actRunning act s P tick

/-- The operations of a list, in order: the "sequence as an input" of 60_exceptions.md R283. The answer is the last one's. -/
def Session.actAll (acts : List EnvAction) (x : Session) (P : Params := Config.params) (tick : State → Result := step) :
    SessionResult :=
  match acts with
  | [] => .next (x, .done)
  | [a] => x.act a P tick
  | a :: rest =>
    match x.act a P tick with
    | .next (y, _) => y.actAll rest P tick
    | .fault r => .fault r
    | .refused r => .refused r

end Sys2Proof.Machine
end

