-- ==== Sys2Proof/Safety.lean ====
section
/-! DEFINITION. The terms the claims use: the invariant that every tick and every action of the environment keeps, the end of a
run, and what an instruction leaves unchanged. -/

namespace Sys2Proof.Machine

/-- What holds at every tick boundary of every session. Each field rules out states that no session reaches. -/
structure State.Inv (s : State) : Prop where
  /-- Memory is in canonical form and lies below 65,536 (10_state.md R35). -/
  memWf : s.mem.wf = true
  /-- The port table is in canonical form and has 256 ports (10_state.md R36). -/
  portDataWf : s.portData.wfData = true
  /-- The owner table likewise (10_state.md R36). -/
  portOwnerWf : s.portOwner.wfOwner = true
  /-- "full when full = 1 (then sp = 0)" (10_state.md R29). -/
  fullWrapped : s.full = true → s.sp = 0
  /-- The jump marker "is 0 at the start of every tick" (10_state.md R31). -/
  jmpClear : s.jmp = false
  /-- The queue holds "at most IRQ_QUEUE_CAPACITY records" (10_state.md R37). -/
  queueBounded : s.irqQueue.length ≤ Config.irqQueueCapacity
  /-- A halted CPU has interrupts enabled (60_exceptions.md R276). -/
  haltCanWake : s.flags.halt = true → s.flags.interrupt = true
  /-- `int_ready` is raised at entry and dropped by the prologue (60_exceptions.md R275, R277). -/
  readyIffManaging : s.intReady = true ↔ s.cpuState = .interruptManagement
  /-- The request has dropped once the CPU is in interrupt management (60_exceptions.md R270, R275). -/
  managingMeansDropped : s.cpuState = .interruptManagement → s.intRequest = false
  /-- A request stands only while a record is queued (60_exceptions.md R270, R272). -/
  requestMeansQueued : s.intRequest = true → s.irqQueue ≠ []

/-- The invariant of a session. -/
def Session.Inv : Session → Prop
  | .beforeInit owners => owners.wfOwner = true
  | .running s => s.Inv

/-- The port owners of a session (10_state.md R36). -/
def Session.portOwner : Session → PortTable DeviceId
  | .beforeInit owners => owners
  | .running s => s.portOwner

/-- The owner of port `p` in a session; 0 is "unassigned" (10_state.md R36). -/
def Session.ownerOf (p : Nat) (x : Session) : DeviceId := lookup 0 x.portOwner p

/-- A run has *ended* (70_reset_and_hazards.md R314): halted and idle. -/
def State.ended (s : State) : Bool :=
  decide (s.cpuState = .instructionExec) && s.flags.halt && s.irqQueue.isEmpty && !s.intRequest

/-- The next CPU tick fetches and executes (40_execution_cycle.md R101). -/
def State.willFetch (s : State) : Bool :=
  decide (s.cpuState = .instructionExec) && !(s.flags.interrupt && s.intRequest) && !s.flags.halt

/-! ### What stays the same -/

/-- Every register but `dst` reads as before. -/
def SameRegsBut (dst : Reg) (s t : State) : Prop := ∀ r, r ≠ dst → readReg r t = readReg r s

/-- Every register reads as before. -/
def SameRegs (s t : State) : Prop := ∀ r, readReg r t = readReg r s

/-- Every byte of memory reads as before. -/
def SameMem (s t : State) : Prop := ∀ a, memRead a t = memRead a s

/-- Every byte of memory outside the address `x` reads as before. -/
def SameMemBut (x : Word) (s t : State) : Prop := ∀ a, a ≠ x → memRead a t = memRead a s

/-- Every port reads as before. -/
def SamePorts (s t : State) : Prop := ∀ p, portRead p t = portRead p s

/-- The stack pointer and the latch are as before. -/
def SameStack (s t : State) : Prop := t.sp = s.sp ∧ t.full = s.full

/-- The program counter and the jump marker are as before. -/
def SamePc (s t : State) : Prop := t.pc = s.pc ∧ t.jmp = s.jmp

/-- The instruction register and the bus fabric are as before: everything no instruction writes (10_state.md R32 to R34, R36,
R37). -/
def SameFabric (s t : State) : Prop :=
  t.cpuState = s.cpuState ∧ t.ir = s.ir ∧ t.modeView = s.modeView ∧ t.intReady = s.intReady ∧ t.intRequest = s.intRequest ∧
    t.addrBus = s.addrBus ∧ t.dataBus = s.dataBus ∧ t.irqQueue = s.irqQueue ∧
    t.portOwner = s.portOwner

/-! ### The stack, in closed form -/

/-- How many bytes can still be pushed (40_execution_cycle.md R115, R116). -/
def stackFree (s : State) : Nat := if s.full then 0 else 256 - s.sp.toNat

/-- How many bytes can be popped (40_execution_cycle.md R115, R117). -/
def stackHeld (s : State) : Nat := if s.full = true ∧ s.sp = 0 then 256 else s.sp.toNat

/-- Where the byte pushed `k` places after the next one goes (40_execution_cycle.md R114). -/
def pushSlot (s : State) (k : Nat) : Word := stackAddr (s.sp + BitVec.ofNat 8 k)

/-- Memory, pointer and latch after pushing `bytes`, the first one first: as many as fit are stored in order, and no other byte of
memory changes (40_execution_cycle.md R116, R119, R120). -/
def StackAfterPushing (bytes : List Byte) (s t : State) : Prop :=
  let n := min bytes.length (stackFree s)
  (∀ k, k < n → memRead (pushSlot s k) t = bytes.getD k 0) ∧
    (∀ a, (∀ k, k < n → a ≠ pushSlot s k) → memRead a t = memRead a s) ∧
    t.sp = s.sp + BitVec.ofNat 8 n ∧ t.full = (s.full || decide (s.sp.toNat + n = 256))

/-- F.C after pushing `n` bytes: set where one did not fit, else as before (40_execution_cycle.md R116). -/
def carryAfterPushing (n : Nat) (s : State) : Bool := s.flags.carry || decide (stackFree s < n)

/-- The byte the pop number `k` (from 0) gives, if any (40_execution_cycle.md R117). -/
def poppedByte (s : State) (k : Nat) : Option Byte :=
  if k < stackHeld s then some (memRead (stackAddr (s.sp - 1 - BitVec.ofNat 8 k)) s) else none

/-- Pointer and latch after `n` pops; memory is only read (40_execution_cycle.md R117, R119, R120). -/
def StackAfterPopping (n : Nat) (s t : State) : Prop :=
  t.sp = s.sp - BitVec.ofNat 8 (min n (stackHeld s)) ∧ t.full = (s.full && decide (min n (stackHeld s) = 0)) ∧ SameMem s t

/-- F.C after `n` pops: set where one failed, else as before (40_execution_cycle.md R117). -/
def carryAfterPopping (n : Nat) (s : State) : Bool := s.flags.carry || decide (stackHeld s < n)

end Sys2Proof.Machine
end

