-- ==== Sys2Proof/Certificates/Slice0/Obligations.lean ====
section
/-! DEFINITION. The statements for the provers, one `def Obligations.<Name> : Prop` each, and the few shapes they share. -/

namespace Sys2Proof.Machine

/-! ### Shapes -/

/-- The word of `i` has the given opcode and mode fields and is read back as `i`. -/
def EncodedAs (i : Instr) (op : BitVec 6) (mode : BitVec 4) : Prop :=
  opcodeField (encode i) = op ∧ modeField (encode i) = mode ∧ decode (encode i) = .form i

/-- A word with opcode `op` and a mode outside `modes` is unmatched. -/
def OnlyModes (op : BitVec 6) (modes : List (BitVec 4)) : Prop :=
  ∀ w : Dword, opcodeField w = op → modeField w ∉ modes → ∃ why, decode w = .unmatched why

/-- In every state `exec i` answers next: the register `dst` holds `result` as a number, the flags are `newFlags` of the state
before and the result, and everything else is as before. -/
def WritesRegAndFlags (i : Instr) (dst : Reg) (result : State → Nat) (newFlags : State → Nat → Flags) : Prop :=
  ∀ s, ∃ t, exec i s = .next t ∧ (readReg dst t).toNat = result s ∧ t.flags = newFlags s (result s) ∧
    SameRegsBut dst s t ∧ SameMem s t ∧ SamePorts s t ∧ SameStack s t ∧ SamePc s t ∧ SameFabric s t

/-- `P` holds of the four forms of a two-operand ALU instruction, each with its destination and its source byte
(40_execution_cycle.md R110), and each has the given opcode and its mode. -/
def EveryAluForm (reg : Reg → Reg → Instr) (imm : Reg → Byte → Instr) (ram : Reg → Word → Instr)
    (ramreg : Reg → Reg → Reg → Instr) (op : BitVec 6) (P : Instr → Reg → (State → Byte) → Prop) : Prop :=
  (∀ r1 r2, EncodedAs (reg r1 r2) op 1 ∧ P (reg r1 r2) r1 (readReg r2)) ∧
    (∀ r1 v1, EncodedAs (imm r1 v1) op 2 ∧ P (imm r1 v1) r1 fun _ => v1) ∧
    (∀ r1 vx, EncodedAs (ram r1 vx) op 3 ∧ P (ram r1 vx) r1 (memRead vx)) ∧
    ∀ r1 r2 r3, EncodedAs (ramreg r1 r2 r3) op 4 ∧ P (ramreg r1 r2 r3) r3 fun s => memRead (pair r1 r2 s) s

/-- In every state `exec i` answers next: with `taken` the PC is the target and the jump marker is set, without it both are as
before; everything else is as before. -/
def JumpsWhen (i : Instr) (taken : State → Bool) (target : State → Word) : Prop :=
  ∀ s, ∃ t, exec i s = .next t ∧ (taken s = true → t.pc = target s ∧ t.jmp = true) ∧ (taken s = false → SamePc s t) ∧
    t.flags = s.flags ∧ SameRegs s t ∧ SameMem s t ∧ SamePorts s t ∧ SameStack s t ∧ SameFabric s t

/-- Both forms of a jump, with their encodings. -/
def EveryJumpForm (imm16 : Word → Instr) (reg16 : Reg → Reg → Instr) (op : BitVec 6) (taken : State → Bool) : Prop :=
  (∀ vx, EncodedAs (imm16 vx) op 6 ∧ JumpsWhen (imm16 vx) taken fun _ => vx) ∧
    ∀ r1 r2, EncodedAs (reg16 r1 r2) op 5 ∧ JumpsWhen (reg16 r1 r2) taken (pair r1 r2)

/-- In every state `exec i` answers next: the byte at `addr` is the register `src`, everything else is as before. -/
def StoresByte (i : Instr) (addr : State → Word) (src : Reg) : Prop :=
  ∀ s, ∃ t, exec i s = .next t ∧ memRead (addr s) t = readReg src s ∧ SameMemBut (addr s) s t ∧
    t.flags = s.flags ∧ SameRegs s t ∧ SamePorts s t ∧ SameStack s t ∧ SamePc s t ∧ SameFabric s t

/-- In every state `exec i` answers next: the port `port` holds the register `src`, everything else is as before. -/
def WritesPort (i : Instr) (port : State → Byte) (src : Reg) : Prop :=
  ∀ s, ∃ t, exec i s = .next t ∧ portRead (port s) t = readReg src s ∧
    (∀ p, p ≠ port s → portRead p t = portRead p s) ∧
    t.flags = s.flags ∧ SameRegs s t ∧ SameMem s t ∧ SameStack s t ∧ SamePc s t ∧ SameFabric s t

/-- The table of 30_encoding.md R79, row by row: mnemonics and their modes. -/
def supportedRows : List (List Op × List Mode) :=
  [([.add, .adc, .sub, .sbb, .cmp], [.reg, .regImm8, .regRam, .ramreg]),
   ([.inc, .dec], [.reg]),
   ([.and, .or, .xor], [.reg, .regImm8, .regRam, .ramreg]),
   ([.not, .shl, .shr], [.reg]),
   ([.jmp, .jmc, .jme, .jmf, .jmn, .jms, .jmz, .cal], [.imm16, .reg16]),
   ([.ret], [.none]),
   ([.psh], [.reg, .imm8]),
   ([.pop], [.reg]),
   ([.mov], [.reg, .regImm8]),
   ([.lod, .str], [.regRam, .ramreg]),
   ([.portIn, .portOut], [.reg, .regImm8]),
   ([.nop, .hlt, .irt], [.none]),
   ([.int], [.imm8]),
   ([.clc, .cle, .cli, .cln, .cls, .clz, .clf, .stc, .ste, .sti, .stn, .sts, .stz, .stf], [.none])]

/-- The (mnemonic, mode) pairs of the table. -/
def supportedForms : List (Op × Mode) := supportedRows.flatMap fun r => r.1.flatMap fun o => r.2.map fun m => (o, m)

/-- The bytes pushed one by one, the first one first. -/
def pushAll : List Byte → State → State
  | [], s => s
  | b :: rest, s => pushAll rest (push b s)

/-- `n` pops: what each gave, in order, and the state after. -/
def popAll : Nat → State → List (Option Byte) × State
  | 0, s => ([], s)
  | n + 1, s => ((pop s).1 :: (popAll n (pop s).2).1, (popAll n (pop s).2).2)

/-- The handler address in IVT entry `p`, as a number (46_system.md R223). -/
def handlerInTable (p : Byte) (s : State) : Nat :=
  256 * (memRead (BitVec.ofNat 16 (Config.ivtBase.toNat + 2 * p.toNat)) s).toNat +
    (memRead (BitVec.ofNat 16 (Config.ivtBase.toNat + 2 * p.toNat + 1)) s).toNat

/-- The reset state with an image loaded and the given port owners (10_state.md R39, 70_reset_and_hazards.md R302, R303). -/
def ResetFromImage (image : List Byte) (owners : PortTable DeviceId) (t : State) : Prop :=
  (∀ a : Word, memRead a t = image.getD a.toNat 0) ∧ t.mem.wf = true ∧ (∀ r, readReg r t = 0) ∧
    t.flags = { carry := false, equal := false, interrupt := true, negative := false, superior := false, zero := false,
                inferior := false, halt := false } ∧
    t.pc = Config.programStart ∧ t.sp = 0 ∧ t.full = false ∧ t.jmp = false ∧ t.cpuState = .instructionExec ∧ t.ir = 0 ∧
    t.modeView = 0 ∧ t.intReady = false ∧ t.intRequest = false ∧ t.addrBus = 0 ∧ t.dataBus = 0 ∧
    (∀ p, portRead p t = 0) ∧ t.irqQueue = [] ∧ t.portOwner = owners

/-- The `count` ports from `first` on lie in the table and are unassigned. -/
def IsFreeBlock (s : State) (first count : Nat) : Prop :=
  first + count ≤ 256 ∧ ∀ p, first ≤ p → p < first + count → ownerOf p s = 0

end Sys2Proof.Machine

open Sys2Proof Sys2Proof.Machine

/-- Every well-formed instruction is read back from its own word (30_encoding.md R71 to R79, 30_encoding.md R83). -/
def Obligations.EncodeDecodeAllForms : Prop :=
  ∀ i : Instr, WellFormed i = true → decode (encode i) = .form i

/-- A word decodes to a form exactly when it agrees with the form's word on the bits the form reads (30_encoding.md R72 to R79, 30_encoding.md R76, 30_encoding.md R83). -/
def Obligations.DecodeReadsExactlyItsFields : Prop :=
  ∀ (w : Dword) (i : Instr), decode w = .form i ↔ (WellFormed i = true ∧ w &&& i.readMask = encode i)

/-- Exactly the 85 (opcode, mode) pairs of the table decode to a form; every other word is unmatched. The table is the spec's own decision, R79 (30_encoding.md R79, 92_eei_decisions.md D6). -/
def Obligations.SupportedFormsAreTheTable : Prop :=
  supportedForms.length = 85 ∧ supportedForms.Nodup ∧
    ∀ w : Dword,
      (∀ p ∈ supportedForms, opcodeField w = opcodeOf p.1 → modeField w = modeCode p.2 →
        ∃ i, decode w = .form i ∧ i.parts.1 = p.1 ∧ i.parts.2.1 = p.2) ∧
      ((∀ p ∈ supportedForms, ¬ (opcodeField w = opcodeOf p.1 ∧ modeField w = modeCode p.2)) →
        ∃ why, decode w = .unmatched why)

/-- The worked words of the spec decode to the instructions they stand for (30_encoding.md R86, 95_test_vectors.md section 2). -/
def Obligations.WorkedEncodingsDecode : Prop :=
  decode 0x70800500 = .form (.movRegImm8 .a 5) ∧ decode 0x70880300 = .form (.movRegImm8 .b 3) ∧
    decode 0x08410000 = .form (.addReg .a .b) ∧ decode 0x38000000 = .form .hlt ∧
    decode 0x61800300 = .form (.jmpImm16 0x0300) ∧ decode 0x6D254000 = .form (.lodRamreg .i .j .c) ∧
    decode 0x00000000 = .form .nop ∧ decode 0x09400000 = .unmatched .unsupportedForm ∧
    decode 0xFC000000 = .unmatched .unassignedOpcode ∧ decode 0x0BC00000 = .unmatched .unnamedMode

/-- A step that fetches runs the decoded instruction, advances the PC unless it jumped, and ticks the IOD (40_execution_cycle.md R100, R101, R103 to R107). -/
def Obligations.StepRunsDecodedInstruction : Prop :=
  ∀ (s t : State) (i : Instr), s.willFetch = true → decode (fetch32 s.pc s) = .form i →
    exec i (s.setFetched (fetch32 s.pc s) (modeField (fetch32 s.pc s))) = .next t →
    step s = .next (iodTick ((if t.jmp then t else t.setPc (t.pc + 4)).setJmp false))

/-- An unmatched word changes nothing but ir, mode_view and the PC, which advances by 4. That mode_view holds the raw mode field,
for the codes 8 to 15 too, is read from R33, R72 and R101: log entry 15 (DEDUCED) (30_encoding.md R84, 10_state.md R33, 30_encoding.md R72, 40_execution_cycle.md R101). -/
def Obligations.UnmatchedWordIsNoOp : Prop :=
  ∀ (s : State) (why : Unmatched), s.willFetch = true → s.jmp = false → decode (fetch32 s.pc s) = .unmatched why →
    ∃ t, cpuTick s = .next t ∧ step s = .next (iodTick t) ∧ t.pc = s.pc + 4 ∧ t.jmp = false ∧
      t.ir = fetch32 s.pc s ∧ t.modeView = modeField (fetch32 s.pc s) ∧
      SameRegs s t ∧ t.flags = s.flags ∧ SameMem s t ∧ SamePorts s t ∧ SameStack s t ∧ t.cpuState = s.cpuState ∧
      t.intReady = s.intReady ∧ t.intRequest = s.intRequest ∧ t.addrBus = s.addrBus ∧ t.dataBus = s.dataBus ∧
      t.irqQueue = s.irqQueue ∧ t.portOwner = s.portOwner

/-- The CPU half of a halted tick changes nothing but the jump marker (R109). -/
def Obligations.HaltedTickChangesNothing : Prop :=
  ∀ s : State, s.cpuState = .instructionExec → s.flags.halt = true →
    ¬ (s.flags.interrupt = true ∧ s.intRequest = true) → cpuTick s = .next (s.setJmp false)

/-- Fetch32 reads four consecutive bytes big-endian, every address modulo 2^16 (40_execution_cycle.md R103, 20_memory.md R54). -/
def Obligations.FetchIsBigEndian : Prop :=
  ∀ (a : Word) (s : State), (fetch32 a s).toNat =
    (memRead a s).toNat * 2 ^ 24 + (memRead (BitVec.ofNat 16 (a.toNat + 1)) s).toNat * 2 ^ 16 +
      (memRead (BitVec.ofNat 16 (a.toNat + 2)) s).toNat * 2 ^ 8 + (memRead (BitVec.ofNat 16 (a.toNat + 3)) s).toNat

/-- Every step answers next, in every state; and a halted idle state stays as it is (70_reset_and_hazards.md R314). -/
def Obligations.EveryTickIsDefined : Prop :=
  (∀ s : State, ∃ t, step s = .next t) ∧ ∀ s : State, s.ended = true → step s = .next (s.setJmp false)

/-- The first tick of an interrupt executes nothing, raises int_ready and delivers the front record (R275). -/
def Obligations.InterruptEntryFirstTick : Prop :=
  ∀ s : State, s.cpuState = .instructionExec → s.flags.interrupt = true → s.intRequest = true →
    ∃ t, step s = .next t ∧ t.cpuState = .interruptManagement ∧ t.intReady = true ∧ t.intRequest = false ∧
      (∀ r rest, s.irqQueue = r :: rest →
        t.irqQueue = rest ∧ t.addrBus = r.port.setWidth 16 ∧ t.dataBus = r.data) ∧
      (s.irqQueue = [] → t.irqQueue = [] ∧ t.addrBus = s.addrBus ∧ t.dataBus = s.dataBus) ∧
      SameRegs s t ∧ t.flags = s.flags ∧ t.pc = s.pc ∧ t.jmp = false ∧ SameStack s t ∧ t.ir = s.ir ∧
      t.modeView = s.modeView ∧ SameMem s t ∧ SamePorts s t ∧ t.portOwner = s.portOwner

/-- In interrupt management the CPU waits for the request to drop, then pushes I and the PC and goes to the handler. That int_ready drops here is the spec's choice (R277), the place of the optional load of I is log entry 13 (60_exceptions.md R277, 92_eei_decisions.md D20, 92_eei_decisions.md D21). -/
def Obligations.InterruptPrologue : Prop :=
  (∀ s : State, s.cpuState = .interruptManagement → s.intRequest = true → cpuTick s = .next (s.setJmp false)) ∧
    (∀ (s : State) (P : Params), interruptService s { P with prologueLoadsI := true } =
      writeReg .i s.dataBus (interruptService s { P with prologueLoadsI := false })) ∧
    ∀ s : State, s.cpuState = .interruptManagement → s.intRequest = false →
      ∃ t, cpuTick s = .next t ∧
        StackAfterPushing [readReg .i s, s.pc.extractLsb' 8 8, s.pc.extractLsb' 0 8] s t ∧
        t.flags = { s.flags with carry := carryAfterPushing 3 s, interrupt := false, halt := false } ∧
        t.pc = memRead (vectorAddr (s.addrBus.extractLsb' 0 8)) t ++ memRead (vectorAddr (s.addrBus.extractLsb' 0 8) + 1) t ∧
        t.jmp = false ∧ t.intReady = false ∧ t.cpuState = .instructionExec ∧
        SameRegs s t ∧ SamePorts s t ∧ t.ir = s.ir ∧ t.modeView = s.modeView ∧ t.intRequest = s.intRequest ∧
        t.addrBus = s.addrBus ∧ t.dataBus = s.dataBus ∧ t.irqQueue = s.irqQueue ∧ t.portOwner = s.portOwner

/-- INT and the prologue read the handler address from IVT entry p alike: two bytes at IVT_BASE + 2p, big-endian (R223). -/
def Obligations.HandlerAddressFromVectorTable : Prop :=
  (∀ (p : Byte) (s t : State), exec (.intImm8 p) s = .next t → t.pc.toNat = handlerInTable p t) ∧
    ∀ s t : State, s.cpuState = .interruptManagement → s.intRequest = false → cpuTick s = .next t →
      t.pc.toNat = handlerInTable (s.addrBus.extractLsb' 0 8) t

/-- A trigger on a halted idle core with interrupts enabled reaches its handler in three ticks. That int_ready is clear then rests on
R277, which says that clearing it at the end of the prologue is the spec's choice (60_exceptions.md R275 to R279, 92_eei_decisions.md D21, 95_test_vectors.md W8). -/
def Obligations.InterruptWakesHaltedCpu : Prop :=
  ∀ (s : State) (p : Byte), s.Inv → s.cpuState = .instructionExec → s.flags.halt = true → s.irqQueue = [] →
    s.intRequest = false →
    ∃ t, Host.Core.run Sys2Proof.core 3 (triggerInterrupt p s) = .next t ∧
      t.pc = memRead (vectorAddr p) t ++ memRead (vectorAddr p + 1) t ∧
      t.flags.interrupt = false ∧ t.flags.halt = false ∧ t.cpuState = .instructionExec ∧ t.intReady = false ∧
      SameRegs s t ∧ StackAfterPushing [readReg .i s, s.pc.extractLsb' 8 8, s.pc.extractLsb' 0 8] s t ∧
      t.addrBus = p.setWidth 16 ∧ t.dataBus = portRead p s ∧ t.irqQueue = []

/-- With F.I = 0 no interrupt is entered: records stay queued and the request stands (60_exceptions.md R274, 95_test_vectors.md W7). -/
def Obligations.MaskedInterruptIsNotServed : Prop :=
  ∀ s t : State, s.Inv → s.cpuState = .instructionExec → s.flags.interrupt = false → step s = .next t →
    t.cpuState = .instructionExec ∧ t.irqQueue = s.irqQueue ∧ t.intReady = false ∧ t.intRequest = !s.irqQueue.isEmpty

/-- The IOD half raises the request while records are queued, or delivers the front record to a ready CPU (R270). -/
def Obligations.IodTickRaisesOrDelivers : Prop :=
  ∀ s : State,
    (s.intReady = false → iodTick s = s.setIntRequest (decide (s.irqQueue ≠ []))) ∧
    (s.intReady = true → s.irqQueue = [] → iodTick s = s.setIntRequest false) ∧
    ∀ r rest, s.intReady = true → s.irqQueue = r :: rest →
      iodTick s = ((s.setIntRequest false).setIrqQueue rest).setBuses (r.port.setWidth 16) r.data

/-- triggerInterrupt appends the port and its current byte below capacity, else changes nothing (R268). -/
def Obligations.TriggerQueuesOrDrops : Prop :=
  ∀ (p : Byte) (s : State),
    (s.irqQueue.length < Config.irqQueueCapacity →
      triggerInterrupt p s = s.setIrqQueue (s.irqQueue ++ [{ port := p, data := portRead p s }])) ∧
    (Config.irqQueueCapacity ≤ s.irqQueue.length → triggerInterrupt p s = s) ∧
    (s.intReady = false → (iodTick (triggerInterrupt p s)).intRequest = true)

/-- ADD: the sum modulo 256, carry on a sum above 255, zero and negative from the result (R131). -/
def Obligations.AddEveryForm : Prop :=
  EveryAluForm .addReg .addRegImm8 .addRegRam .addRamreg 0x02 fun i dst operand =>
    WritesRegAndFlags i dst (fun s => ((readReg dst s).toNat + (operand s).toNat) % 256)
      (fun s res => { s.flags with
        carry := decide ((readReg dst s).toNat + (operand s).toNat > 255), zero := decide (res = 0), negative := decide (128 ≤ res) })

/-- ADC: the sum with the old carry modulo 256, carry on a sum above 255 (R132). -/
def Obligations.AdcEveryForm : Prop :=
  EveryAluForm .adcReg .adcRegImm8 .adcRegRam .adcRamreg 0x01 fun i dst operand =>
    WritesRegAndFlags i dst (fun s => ((readReg dst s).toNat + (operand s).toNat + s.flags.carry.toNat) % 256)
      (fun s res => { s.flags with
        carry := decide ((readReg dst s).toNat + (operand s).toNat + s.flags.carry.toNat > 255)
        zero := decide (res = 0), negative := decide (128 ≤ res) })

/-- SUB: the difference modulo 256, carry as the borrow (R133). -/
def Obligations.SubEveryForm : Prop :=
  EveryAluForm .subReg .subRegImm8 .subRegRam .subRamreg 0x2D fun i dst operand =>
    WritesRegAndFlags i dst (fun s => ((readReg dst s).toNat + 256 - (operand s).toNat) % 256)
      (fun s res => { s.flags with
        carry := decide ((readReg dst s).toNat < (operand s).toNat), zero := decide (res = 0), negative := decide (128 ≤ res) })

/-- SBB: the difference less the old carry modulo 256, carry as the borrow (R134). -/
def Obligations.SbbEveryForm : Prop :=
  EveryAluForm .sbbReg .sbbRegImm8 .sbbRegRam .sbbRamreg 0x22 fun i dst operand =>
    WritesRegAndFlags i dst (fun s => ((readReg dst s).toNat + 512 - ((operand s).toNat + s.flags.carry.toNat)) % 256)
      (fun s res => { s.flags with
        carry := decide ((readReg dst s).toNat < (operand s).toNat + s.flags.carry.toNat)
        zero := decide (res = 0), negative := decide (128 ≤ res) })

/-- INC and DEC: one more and one less modulo 256, carry on the wrap (R135, R136). -/
def Obligations.IncAndDec : Prop :=
  OnlyModes 0x11 [1] ∧ OnlyModes 0x0D [1] ∧ ∀ r1 : Reg, EncodedAs (.incReg r1) 0x11 1 ∧ EncodedAs (.decReg r1) 0x0D 1 ∧
    WritesRegAndFlags (.incReg r1) r1 (fun s => ((readReg r1 s).toNat + 1) % 256)
      (fun s res => { s.flags with
        carry := decide (readReg r1 s = 0xFF), zero := decide (res = 0), negative := decide (128 ≤ res) }) ∧
    WritesRegAndFlags (.decReg r1) r1 (fun s => ((readReg r1 s).toNat + 255) % 256)
      (fun s res => { s.flags with
        carry := decide (readReg r1 s = 0x00), zero := decide (res = 0), negative := decide (128 ≤ res) })

/-- CMP: E, S and F tell equal, greater, less, unsigned; exactly one is set; nothing else changes. That SUPERIOR means
greater and INFERIOR less, unsigned, is the spec's own reading: R137 says so, and log entry 12 records it (41_alu_arith.md R137, 92_eei_decisions.md D12, 93_implementation_defined.md U19). -/
def Obligations.CmpEveryForm : Prop :=
  EveryAluForm .cmpReg .cmpRegImm8 .cmpRegRam .cmpRamreg 0x0C fun i dst operand =>
    ∀ s, ∃ t, exec i s = .next t ∧
      t.flags = { s.flags with
        equal := decide ((readReg dst s).toNat = (operand s).toNat)
        superior := decide ((readReg dst s).toNat > (operand s).toNat)
        inferior := decide ((readReg dst s).toNat < (operand s).toNat) } ∧
      (t.flags.equal.toNat + t.flags.superior.toNat + t.flags.inferior.toNat = 1) ∧
      SameRegs s t ∧ SameMem s t ∧ SamePorts s t ∧ SameStack s t ∧ SamePc s t ∧ SameFabric s t

/-- AND, OR and XOR: the bitwise result, zero and negative from it, carry untouched (R151, R152, R153). -/
def Obligations.LogicEveryForm : Prop :=
  (EveryAluForm .andReg .andRegImm8 .andRegRam .andRamreg 0x03 fun i dst operand =>
      WritesRegAndFlags i dst (fun s => (readReg dst s).toNat &&& (operand s).toNat)
        (fun s res => { s.flags with zero := decide (res = 0), negative := decide (128 ≤ res) })) ∧
    (EveryAluForm .orReg .orRegImm8 .orRegRam .orRamreg 0x1E fun i dst operand =>
      WritesRegAndFlags i dst (fun s => (readReg dst s).toNat ||| (operand s).toNat)
        (fun s res => { s.flags with zero := decide (res = 0), negative := decide (128 ≤ res) })) ∧
    (EveryAluForm .xorReg .xorRegImm8 .xorRegRam .xorRamreg 0x2E fun i dst operand =>
      WritesRegAndFlags i dst (fun s => (readReg dst s).toNat ^^^ (operand s).toNat)
        (fun s res => { s.flags with zero := decide (res = 0), negative := decide (128 ≤ res) }))

/-- NOT complements; SHL and SHR shift by one with carry as the bit shifted out; SHR leaves F.N (R154, R155, R156). -/
def Obligations.NotAndShifts : Prop :=
  OnlyModes 0x1D [1] ∧ OnlyModes 0x23 [1] ∧ OnlyModes 0x24 [1] ∧
    ∀ r1 : Reg, EncodedAs (.notReg r1) 0x1D 1 ∧ EncodedAs (.shlReg r1) 0x23 1 ∧ EncodedAs (.shrReg r1) 0x24 1 ∧
    WritesRegAndFlags (.notReg r1) r1 (fun s => 255 - (readReg r1 s).toNat)
      (fun s res => { s.flags with zero := decide (res = 0), negative := decide (128 ≤ res) }) ∧
    WritesRegAndFlags (.shlReg r1) r1 (fun s => (2 * (readReg r1 s).toNat) % 256)
      (fun s res => { s.flags with
        carry := decide (128 ≤ (readReg r1 s).toNat), zero := decide (res = 0), negative := decide (128 ≤ res) }) ∧
    WritesRegAndFlags (.shrReg r1) r1 (fun s => (readReg r1 s).toNat / 2)
      (fun s res => { s.flags with carry := decide ((readReg r1 s).toNat % 2 = 1), zero := decide (res = 0) })

/-- JMP writes its target into the PC and sets the jump marker; nothing else changes (R171). -/
def Obligations.JumpAlways : Prop :=
  EveryJumpForm .jmpImm16 .jmpReg16 0x18 fun _ => true

/-- JMC JME JMN JMS JMZ jump exactly where C, E, N, S, Z is 1; no flag is written (R172, R173, R175, R176, R177). -/
def Obligations.ConditionalJumps : Prop :=
  EveryJumpForm .jmcImm16 .jmcReg16 0x14 (fun s => s.flags.carry) ∧
    EveryJumpForm .jmeImm16 .jmeReg16 0x15 (fun s => s.flags.equal) ∧
    EveryJumpForm .jmnImm16 .jmnReg16 0x17 (fun s => s.flags.negative) ∧
    EveryJumpForm .jmsImm16 .jmsReg16 0x19 (fun s => s.flags.superior) ∧
    EveryJumpForm .jmzImm16 .jmzReg16 0x1A (fun s => s.flags.zero)

/-- JMF jumps exactly where F.F is 1; that F names INFERIOR is the spec's own reading (R174) (43_control.md R174, 92_eei_decisions.md D17). -/
def Obligations.JumpIfInferior : Prop :=
  EveryJumpForm .jmfImm16 .jmfReg16 0x16 fun s => s.flags.inferior

/-- CAL pushes the next instruction's address, high byte first, and jumps whether or not the pushes fit (R178). -/
def Obligations.CallPushesReturnAddress : Prop :=
  ∀ i op target, ((∃ vx, i = .calImm16 vx ∧ op = 6 ∧ target = fun _ => vx) ∨
      (∃ r1 r2, i = .calReg16 r1 r2 ∧ op = 5 ∧ target = pair r1 r2)) →
    EncodedAs i 0x04 op ∧
      ∀ s, ∃ t, exec i s = .next t ∧
        StackAfterPushing [(s.pc + 4).extractLsb' 8 8, (s.pc + 4).extractLsb' 0 8] s t ∧
        t.flags = { s.flags with carry := carryAfterPushing 2 s } ∧ t.pc = target s ∧ t.jmp = true ∧
        SameRegs s t ∧ SamePorts s t ∧ SameFabric s t

/-- RET pops the low then the high byte of the PC, 0x00 for each byte the stack lacks (R179). -/
def Obligations.ReturnPopsTarget : Prop :=
  EncodedAs .ret 0x21 0 ∧
    ∀ s, ∃ t, exec .ret s = .next t ∧ t.pc = (poppedByte s 1).getD 0 ++ (poppedByte s 0).getD 0 ∧ t.jmp = true ∧
      StackAfterPopping 2 s t ∧ t.flags = { s.flags with carry := carryAfterPopping 2 s } ∧
      SameRegs s t ∧ SamePorts s t ∧ SameFabric s t

/-- PSH pushes a register or an immediate; on the full stack it sets F.C and writes nothing (R190). -/
def Obligations.PushInstruction : Prop :=
  ∀ i mode value, ((∃ r1, i = .pshReg r1 ∧ mode = 1 ∧ value = readReg r1) ∨
      (∃ v1, i = .pshImm8 v1 ∧ mode = 7 ∧ value = fun _ => v1)) →
    EncodedAs i 0x20 mode ∧
      ∀ s, ∃ t, exec i s = .next t ∧ StackAfterPushing [value s] s t ∧
        t.flags = { s.flags with carry := carryAfterPushing 1 s } ∧
        SameRegs s t ∧ SamePorts s t ∧ SamePc s t ∧ SameFabric s t

/-- POP writes the popped byte to its register; on the empty stack it sets F.C and writes no register (R191). -/
def Obligations.PopInstruction : Prop :=
  ∀ r1 : Reg, EncodedAs (.popReg r1) 0x1F 1 ∧
    ∀ s, ∃ t, exec (.popReg r1) s = .next t ∧ readReg r1 t = (poppedByte s 0).getD (readReg r1 s) ∧
      SameRegsBut r1 s t ∧ StackAfterPopping 1 s t ∧ t.flags = { s.flags with carry := carryAfterPopping 1 s } ∧
      SamePorts s t ∧ SamePc s t ∧ SameFabric s t

/-- Push: fails on the full latch with F.C and no write; else writes, increments and latches on the wrap (R116). -/
def Obligations.PushPrimitive : Prop :=
  ∀ (v : Byte) (s : State),
    (s.full = true → push v s = s.setFlags { s.flags with carry := true }) ∧
    (s.full = false → push v s = (memWrite (stackAddr s.sp) v s).setStack (s.sp + 1) (decide (s.sp + 1 = 0)))

/-- Pop: fails on the empty stack with F.C and no byte; else decrements, clears the latch and reads (R117). -/
def Obligations.PopPrimitive : Prop :=
  ∀ s : State,
    (s.sp = 0 → s.full = false → pop s = (none, s.setFlags { s.flags with carry := true })) ∧
    (¬ (s.sp = 0 ∧ s.full = false) → pop s = (some (memRead (stackAddr (s.sp - 1)) s), s.setStack (s.sp - 1) false))

/-- Any sequence of pushes stores as many bytes as fit, in order, and sets F.C exactly where one did not fit (40_execution_cycle.md R116, 40_execution_cycle.md R119, 95_test_vectors.md W2). -/
def Obligations.ManyPushesFillTheStack : Prop :=
  ∀ (bytes : List Byte) (s : State),
    StackAfterPushing bytes s (pushAll bytes s) ∧
      (pushAll bytes s).flags = { s.flags with carry := carryAfterPushing bytes.length s }

/-- Pops give pushed bytes back in reverse order and restore pointer, latch and flags (40_execution_cycle.md R116, R117, R119). -/
def Obligations.StackIsLastInFirstOut : Prop :=
  ∀ (bytes : List Byte) (s : State), bytes.length ≤ stackFree s →
    (popAll bytes.length (pushAll bytes s)).1 = bytes.reverse.map some ∧
      (popAll bytes.length (pushAll bytes s)).2.sp = s.sp ∧
      (popAll bytes.length (pushAll bytes s)).2.full = s.full ∧
      (popAll bytes.length (pushAll bytes s)).2.flags = s.flags

/-- CAL followed by RET goes to the instruction after the CAL and leaves the stack as it was (43_control.md R178, 43_control.md R179, 95_test_vectors.md W6). -/
def Obligations.CallThenReturn : Prop :=
  ∀ (s : State) (i : Instr), ((∃ vx, i = .calImm16 vx) ∨ ∃ r1 r2, i = .calReg16 r1 r2) → 2 ≤ stackFree s →
    ∃ t u, exec i s = .next t ∧ exec .ret t = .next u ∧ u.pc = s.pc + 4 ∧ SameStack s u ∧ u.flags = s.flags ∧ SameRegs s u

/-- INT, a handler that changes I, and IRT: back after the INT with register I restored and F.I set (46_system.md R222, 46_system.md R224, 95_test_vectors.md P8). -/
def Obligations.SoftwareInterruptThenReturn : Prop :=
  ∀ (s : State) (p x : Byte), 3 ≤ stackFree s →
    ∃ t u, exec (.intImm8 p) s = .next t ∧ exec .irt (writeReg .i x t) = .next u ∧ u.pc = s.pc + 4 ∧ SameStack s u ∧
      SameRegs s u ∧ u.flags = { s.flags with interrupt := true, halt := false }

/-- MOV copies a register or an immediate; no flag changes (R200). -/
def Obligations.MoveInstructions : Prop :=
  OnlyModes 0x1C [1, 2] ∧
    (∀ r1 r2, EncodedAs (.movReg r1 r2) 0x1C 1 ∧
      WritesRegAndFlags (.movReg r1 r2) r1 (fun s => (readReg r2 s).toNat) (fun s _ => s.flags)) ∧
    ∀ r1 v1, EncodedAs (.movRegImm8 r1 v1) 0x1C 2 ∧
      WritesRegAndFlags (.movRegImm8 r1 v1) r1 (fun _ => v1.toNat) (fun s _ => s.flags)

/-- LOD copies the addressed byte of memory to its register; the address uses the old registers (R202). -/
def Obligations.LoadInstructions : Prop :=
  (∀ r1 vx, EncodedAs (.lodRegRam r1 vx) 0x1B 3 ∧
      WritesRegAndFlags (.lodRegRam r1 vx) r1 (fun s => (memRead vx s).toNat) (fun s _ => s.flags)) ∧
    ∀ r1 r2 r3, EncodedAs (.lodRamreg r1 r2 r3) 0x1B 4 ∧
      WritesRegAndFlags (.lodRamreg r1 r2 r3) r3 (fun s => (memRead (pair r1 r2 s) s).toNat) (fun s _ => s.flags)

/-- STR writes its register to the addressed byte and no other byte of memory (R203). -/
def Obligations.StoreInstructions : Prop :=
  (∀ r1 vx, EncodedAs (.strRegRam r1 vx) 0x2A 3 ∧ StoresByte (.strRegRam r1 vx) (effectiveAddr (.ram vx)) r1) ∧
    ∀ r1 r2 r3, EncodedAs (.strRamreg r1 r2 r3) 0x2A 4 ∧ StoresByte (.strRamreg r1 r2 r3) (effectiveAddr (.ramreg r1 r2)) r3

/-- IN reads a port into a register and OUT writes one; ownership does not matter and no flag changes (R206, R207). -/
def Obligations.PortInstructions : Prop :=
  (∀ r1 v1, EncodedAs (.inRegImm8 r1 v1) 0x0F 2 ∧
      WritesRegAndFlags (.inRegImm8 r1 v1) r1 (fun s => (portRead v1 s).toNat) (fun s _ => s.flags)) ∧
    (∀ r1 r2, EncodedAs (.inReg r1 r2) 0x0F 1 ∧
      WritesRegAndFlags (.inReg r1 r2) r1 (fun s => (portRead (readReg r2 s) s).toNat) (fun s _ => s.flags)) ∧
    (∀ r1 v1, EncodedAs (.outRegImm8 r1 v1) 0x10 2 ∧ WritesPort (.outRegImm8 r1 v1) (fun _ => v1) r1) ∧
    ∀ r1 r2, EncodedAs (.outReg r1 r2) 0x10 1 ∧ WritesPort (.outReg r1 r2) (readReg r1) r2

/-- A memory write changes exactly one byte and keeps memory in canonical form (R52). -/
def Obligations.MemoryWriteIsExact : Prop :=
  ∀ (a : Word) (v : Byte) (s : State),
    memRead a (memWrite a v s) = v ∧ SameMemBut a s (memWrite a v s) ∧
      memWrite a v s = s.setMem (memWrite a v s).mem ∧ (s.mem.wf = true → (memWrite a v s).mem.wf = true)

/-- NOP changes nothing; HLT sets F.H and F.I and changes nothing else (R220, R221). -/
def Obligations.NopAndHalt : Prop :=
  EncodedAs .nop 0x00 0 ∧ encode .nop = 0x00000000 ∧ EncodedAs .hlt 0x0E 0 ∧
    ∀ s : State, exec .nop s = .next s ∧
      exec .hlt s = .next (s.setFlags { s.flags with halt := true, interrupt := true })

/-- INT pushes I and the next PC, clears F.I and F.H and goes to IVT entry v1, whatever F.I is (R222). -/
def Obligations.SoftwareInterrupt : Prop :=
  ∀ v1 : Byte, EncodedAs (.intImm8 v1) 0x12 7 ∧
    ∀ s, ∃ t, exec (.intImm8 v1) s = .next t ∧
      StackAfterPushing [readReg .i s, (s.pc + 4).extractLsb' 8 8, (s.pc + 4).extractLsb' 0 8] s t ∧
      t.flags = { s.flags with carry := carryAfterPushing 3 s, interrupt := false, halt := false } ∧
      t.pc = memRead (vectorAddr v1) t ++ memRead (vectorAddr v1 + 1) t ∧ t.jmp = true ∧
      SameRegs s t ∧ SamePorts s t ∧ SameFabric s t

/-- IRT pops the PC and register I, sets F.I and jumps; missing PC bytes are 0x00, a missing I is kept (R224). -/
def Obligations.ReturnFromInterrupt : Prop :=
  EncodedAs .irt 0x13 0 ∧
    ∀ s, ∃ t, exec .irt s = .next t ∧ t.pc = (poppedByte s 1).getD 0 ++ (poppedByte s 0).getD 0 ∧ t.jmp = true ∧
      readReg .i t = (poppedByte s 2).getD (readReg .i s) ∧ SameRegsBut .i s t ∧ StackAfterPopping 3 s t ∧
      t.flags = { s.flags with carry := carryAfterPopping 3 s, interrupt := true } ∧ SamePorts s t ∧ SameFabric s t

/-- CLC CLE CLF CLI CLN CLS CLZ: each clears its one flag and changes nothing else (general knowledge of the spec, log entry 11) (47_flag_ops.md R249, 92_eei_decisions.md D33). -/
def Obligations.FlagClears : Prop :=
  EncodedAs .clc 0x05 0 ∧
    EncodedAs .cle 0x06 0 ∧
    EncodedAs .clf 0x0B 0 ∧
    EncodedAs .cli 0x07 0 ∧
    EncodedAs .cln 0x08 0 ∧
    EncodedAs .cls 0x09 0 ∧
    EncodedAs .clz 0x0A 0 ∧
    ∀ s : State,
      exec .clc s = .next (s.setFlags { s.flags with carry := false }) ∧
      exec .cle s = .next (s.setFlags { s.flags with equal := false }) ∧
      exec .clf s = .next (s.setFlags { s.flags with inferior := false }) ∧
      exec .cli s = .next (s.setFlags { s.flags with interrupt := false }) ∧
      exec .cln s = .next (s.setFlags { s.flags with negative := false }) ∧
      exec .cls s = .next (s.setFlags { s.flags with superior := false }) ∧
      exec .clz s = .next (s.setFlags { s.flags with zero := false })

/-- STC STE STF STI STN STS STZ: each sets its one flag and changes nothing else (general knowledge of the spec, log entry 11) (47_flag_ops.md R249, 92_eei_decisions.md D33). -/
def Obligations.FlagSets : Prop :=
  EncodedAs .stc 0x25 0 ∧
    EncodedAs .ste 0x26 0 ∧
    EncodedAs .stf 0x27 0 ∧
    EncodedAs .sti 0x28 0 ∧
    EncodedAs .stn 0x29 0 ∧
    EncodedAs .sts 0x2B 0 ∧
    EncodedAs .stz 0x2C 0 ∧
    ∀ s : State,
      exec .stc s = .next (s.setFlags { s.flags with carry := true }) ∧
      exec .ste s = .next (s.setFlags { s.flags with equal := true }) ∧
      exec .stf s = .next (s.setFlags { s.flags with inferior := true }) ∧
      exec .sti s = .next (s.setFlags { s.flags with interrupt := true }) ∧
      exec .stn s = .next (s.setFlags { s.flags with negative := true }) ∧
      exec .sts s = .next (s.setFlags { s.flags with superior := true }) ∧
      exec .stz s = .next (s.setFlags { s.flags with zero := true })

/-- init, the first one of a session and every later one, loads the image and resets CPU and IOD, keeping the port owners; a wrong size
changes nothing. Some reset values are the spec's own decision (R302) (70_reset_and_hazards.md R300 to R304, 10_state.md R39). -/
def Obligations.InitLoadsAndResets : Prop :=
  ∀ (image : List Byte) (x : Session),
    (image.length = 65536 → ∃ t, x.act (.init image) = .next (.running t, .done) ∧ ResetFromImage image x.portOwner t) ∧
    (image.length ≠ 65536 → x.act (.init image) = .next (x, .failed))

/-- A port request takes the first free contiguous block, or answers no sockets and changes nothing (R264, R266). -/
def Obligations.PortRequestFirstFit : Prop :=
  ∀ (dev count : Nat) (s : State),
    (∀ b, dev ≠ 0 → count ≠ 0 → IsFreeBlock s b count → (∀ c, c < b → ¬ IsFreeBlock s c count) →
      (requestPorts dev count s).1 = (List.range count).map (fun k => BitVec.ofNat 8 (b + k)) ∧
      (∀ p, ownerOf p (requestPorts dev count s).2 = if b ≤ p ∧ p < b + count then dev else ownerOf p s) ∧
      (requestPorts dev count s).2 = s.setPortOwner (requestPorts dev count s).2.portOwner) ∧
    ((dev = 0 ∨ count = 0 ∨ ∀ b, ¬ IsFreeBlock s b count) → requestPorts dev count s = ([], s)) ∧
    Session.act (.requestPorts dev count) (.running s) =
      .next (.running (requestPorts dev count s).2, .sockets (requestPorts dev count s).1)

/-- No sequence of the environment's actions, before or after init, ticks and inits among them, frees or reassigns an owned port (R267). -/
def Obligations.PortOwnershipIsPermanent : Prop :=
  ∀ (acts : List EnvAction) (x y : Session) (reply : EnvReply), x.actAll acts = .next (y, reply) →
    (∀ p, x.ownerOf p ≠ 0 → y.ownerOf p = x.ownerOf p) ∧ ∀ s, x = .running s → ∃ t, y = .running t

/-- A snapshot shows PC, ir, mode, registers, flags, stack pointer and buses, and changes nothing (60_exceptions.md R284, 92_eei_decisions.md D45). -/
def Obligations.SnapshotChangesNothing : Prop :=
  ∀ s : State, ∃ v : Snapshot, actRunning .snapshot s = .next (.running s, .snapshot v) ∧
    v.pc = s.pc ∧ v.ir = s.ir ∧ v.modeView = s.modeView ∧ v.regs = s.regs ∧ v.flags = s.flags ∧ v.sp = s.sp ∧
    v.addrBus = s.addrBus ∧ v.dataBus = s.dataBus

/-- Before the first successful init only init and port requests are answered; a tick is refused (log entry 9) (70_reset_and_hazards.md R301, 70_reset_and_hazards.md R304, 70_reset_and_hazards.md R306, 93_implementation_defined.md U13). -/
def Obligations.NoTickBeforeInit : Prop :=
  ∀ owners : PortTable DeviceId,
    (∀ act, (act = .tick ∨ act = .snapshot ∨ (∃ a, act = .readRam a) ∨ (∃ a v, act = .writeRam a v) ∨
        (∃ dev p, act = .getPortData dev p) ∨ (∃ dev p v, act = .setPortData dev p v) ∨ ∃ dev p, act = .triggerInterrupt dev p) →
      Session.act act (.beforeInit owners) = .refused .beforeInit) ∧
    (∀ image : List Byte, image.length = 65536 →
      ∃ t, Session.act (.init image) (.beforeInit owners) = .next (.running t, .done) ∧ t.portOwner = owners) ∧
    (∀ image : List Byte, image.length ≠ 65536 →
      Session.act (.init image) (.beforeInit owners) = .next (.beforeInit owners, .failed)) ∧
    ∀ (dev count : Nat) (s : State), s.portOwner = owners →
      Session.act (.requestPorts dev count) (.beforeInit owners) =
        .next (.beforeInit (requestPorts dev count s).2.portOwner, .sockets (requestPorts dev count s).1)

/-- The values of the reset state; its zero image and empty owner table are the model's choice (log entries 1 to 3) (10_state.md R39, 70_reset_and_hazards.md R302, R303). -/
def Obligations.ResetStateValues : Prop :=
  (∀ r, readReg r State.reset = 0) ∧
    State.reset.flags = { carry := false, equal := false, interrupt := true, negative := false, superior := false,
                          zero := false, inferior := false, halt := false } ∧
    State.reset.pc = 0x0300 ∧ State.reset.sp = 0 ∧ State.reset.full = false ∧ State.reset.jmp = false ∧
    State.reset.cpuState = .instructionExec ∧ State.reset.ir = 0 ∧ State.reset.modeView = 0 ∧
    State.reset.intReady = false ∧ State.reset.intRequest = false ∧ State.reset.addrBus = 0 ∧ State.reset.dataBus = 0 ∧
    (∀ p, portRead p State.reset = 0) ∧ State.reset.irqQueue = [] ∧
    (∀ a, memRead a State.reset = 0) ∧ ∀ p, ownerOf p State.reset = 0

/-- The reset state meets the invariant (10_state.md R29, R31, R37, R39). -/
def Obligations.ResetMeetsInvariant : Prop :=
  State.Inv State.reset

/-- Every step keeps the invariant (10_state.md R29, R31, R37, 60_exceptions.md R270 to R276). -/
def Obligations.StepKeepsInvariant : Prop :=
  ∀ s t : State, s.Inv → step s = .next t → t.Inv

/-- Every action of the environment, and so every sequence of them, keeps the invariant (60_exceptions.md R283, R286, 70_reset_and_hazards.md R300 to R304). -/
def Obligations.ActionsKeepInvariant : Prop :=
  ∀ (acts : List EnvAction) (x y : Session) (reply : EnvReply), x.Inv → x.actAll acts = .next (y, reply) → y.Inv

/-- No instruction but HLT and INT changes F.H (47_flag_ops.md R250). -/
def Obligations.HaltFlagWriters : Prop :=
  ∀ (i : Instr) (s t : State), exec i s = .next t → t.flags.halt ≠ s.flags.halt →
    (i = .hlt ∧ t.flags.halt = true) ∨ ∃ v1, i = .intImm8 v1 ∧ t.flags.halt = false

/-- Which mnemonics may write memory, the stack pointer, a port or the PC; none writes the bus fabric (10_state.md R29, 40_execution_cycle.md R108, R113, 60_exceptions.md R271). -/
def Obligations.WhatInstructionsMayWrite : Prop :=
  ∀ (i : Instr) (s t : State), exec i s = .next t →
    SameFabric s t ∧
    (¬ SameMem s t → i.parts.1 ∈ [Op.str, .psh, .cal, .int]) ∧
    (¬ SameStack s t → i.parts.1 ∈ [Op.psh, .pop, .cal, .ret, .int, .irt]) ∧
    (¬ SamePorts s t → i.parts.1 = .portOut) ∧
    (¬ SamePc s t → i.parts.1 ∈ [Op.jmp, .jmc, .jme, .jmf, .jmn, .jms, .jmz, .cal, .ret, .int, .irt])

/-- A register pair is its first register times 256 plus its second (10_state.md R22). -/
def Obligations.PairIsHighByteFirst : Prop :=
  ∀ (h l : Reg) (s : State), (pair h l s).toNat = 256 * (readReg h s).toNat + (readReg l s).toNat
end

