-- ==== Sys2Proof/Laws/Params.lean ====
section
/-! SUPPORT. The default of the configuration argument, field by field, and the figures of Config held against the lists. -/

namespace Sys2Proof

@[simp] theorem Config.params_layout : Config.params.layout = Config.layout := rfl
@[simp] theorem Config.params_modeCode : Config.params.modeCode = Sys2Proof.modeCode := rfl
@[simp] theorem Config.params_regCode : Config.params.regCode = Sys2Proof.regCode := rfl
@[simp] theorem Config.params_opcode : Config.params.opcode = opcodeOf := rfl
@[simp] theorem Config.params_ivtBase : Config.params.ivtBase = Config.ivtBase := rfl
@[simp] theorem Config.params_stackBase : Config.params.stackBase = Config.stackBase := rfl
@[simp] theorem Config.params_programStart : Config.params.programStart = Config.programStart := rfl
@[simp] theorem Config.params_irqQueueCapacity : Config.params.irqQueueCapacity = Config.irqQueueCapacity := rfl
@[simp] theorem Config.params_prologueLoadsI : Config.params.prologueLoadsI = Config.prologueLoadsI := rfl
@[simp] theorem Config.params_envInterleave : Config.params.envInterleave = Config.envInterleave := rfl
@[simp] theorem Config.params_hasFlagOps : Config.params.hasFlagOps = Config.hasFlagOps := rfl

/-- The registers are as many as the figure says (10_state.md R20), and a register field has a code for each (R21). -/
theorem registerCount_eq : Reg.all.length = Config.registerCount ∧ 2 ^ Config.regBits = Config.registerCount := by decide

/-- No register is left out or listed twice. -/
theorem Reg.mem_all (r : Reg) : r ∈ Reg.all := by cases r <;> decide

theorem Reg.nodup_all : Reg.all.Nodup := by decide

/-- The memory holds a byte for every address (20_memory.md R50), the port table one for every port number (10_state.md R36). -/
theorem sizes_eq : Config.memSize = 2 ^ 16 ∧ Config.portCount = 2 ^ 8 := by decide

/-- The fields but R3, which shares bits with V1 (30_encoding.md R71), fill the word from the top without a gap. -/
theorem layout_fills :
    Config.layout.opcode + Config.opcodeBits = 8 * Config.instrBytes ∧
      Config.layout.mode + Config.modeBits = Config.layout.opcode ∧ Config.layout.r1 + Config.regBits = Config.layout.mode ∧
      Config.layout.r2 + Config.regBits = Config.layout.r1 ∧ Config.layout.v1 + Config.immBits = Config.layout.r2 ∧
      Config.layout.v2 + Config.immBits = Config.layout.v1 ∧ Config.layout.r3 + Config.regBits = Config.layout.r2 := by decide

end Sys2Proof
end

