-- ==== Sys2Proof/Laws/Decode.lean ====
section
/-! SUPPORT. The laws of the encoding: each number table read backwards, each field of a packed word, the bytes of a word. -/

namespace Sys2Proof

/-! ### Numbers -/

@[simp] theorem regOf_regCode (r : Reg) : regOf (regCode r) = r := by cases r <;> rfl

theorem regCode_regOf (c : BitVec Config.regBits) : regCode (regOf c) = c := by revert c; decide

@[simp] theorem modeOf_modeCode (m : Mode) : modeOf (modeCode m) = some m := by cases m <;> rfl

theorem modeOf_eq_some {c : BitVec Config.modeBits} {m : Mode} : modeOf c = some m ↔ c = modeCode m := by
  constructor
  · intro h; have := List.find?_some h; simpa using (beq_iff_eq.1 this).symm
  · rintro rfl; exact modeOf_modeCode m

@[simp] theorem opOf_opcodeOf (o : Op) : opOf (opcodeOf o) = some o := by cases o <;> rfl

theorem opOf_eq_some {c : BitVec Config.opcodeBits} {o : Op} : opOf c = some o ↔ c = opcodeOf o := by
  constructor
  · intro h; have := List.find?_some h; simpa using (beq_iff_eq.1 this).symm
  · rintro rfl; exact opOf_opcodeOf o

/-! ### Fields of a packed word -/

section fields

variable (f : WordFields)

theorem placeField_getLsbD {n : Nat} (lo k : Nat) (v : BitVec n) :
    (placeField lo v).getLsbD k = (decide (k < 32) && decide (lo ≤ k) && v.getLsbD (k - lo)) := by
  simp only [placeField, BitVec.getLsbD_shiftLeft, BitVec.getLsbD_setWidth]
  by_cases h : k < 32
  · by_cases h2 : lo ≤ k
    · simp [h, h2, show ¬ k < lo by omega, show k - lo < 32 by omega]
    · simp [h2, show k < lo by omega]
  · simp [h]

/-- Bit `k` of a packed word, field by field. -/
theorem packWord_getLsbD {k : Nat} (h : k < 32) :
    (packWord f).getLsbD k =
      ((decide (26 ≤ k) && f.opcode.getLsbD (k - 26)) || (decide (22 ≤ k) && f.mode.getLsbD (k - 22)) ||
        (decide (19 ≤ k) && f.r1.getLsbD (k - 19)) || (decide (16 ≤ k) && f.r2.getLsbD (k - 16)) ||
        (decide (13 ≤ k) && f.r3.getLsbD (k - 13)) || (decide (8 ≤ k) && f.v1.getLsbD (k - 8)) || f.v2.getLsbD k) := by
  simp only [packWord, BitVec.getLsbD_or, placeField_getLsbD, Config.layout, h]
  simp

theorem opcode_getLsbD_of_ge {v : BitVec Config.opcodeBits} {k : Nat} (h : 6 ≤ k) : v.getLsbD k = false :=
  BitVec.getLsbD_of_ge v k h

theorem mode_getLsbD_of_ge {v : BitVec Config.modeBits} {k : Nat} (h : 4 ≤ k) : v.getLsbD k = false :=
  BitVec.getLsbD_of_ge v k h

theorem reg_getLsbD_of_ge {v : BitVec Config.regBits} {k : Nat} (h : 3 ≤ k) : v.getLsbD k = false :=
  BitVec.getLsbD_of_ge v k h

theorem imm_getLsbD_of_ge {v : Byte} {k : Nat} (h : 8 ≤ k) : v.getLsbD k = false := BitVec.getLsbD_of_ge v k h

@[simp] theorem opcodeField_packWord : opcodeField (packWord f) = f.opcode := by
  apply BitVec.eq_of_getLsbD_eq
  intro k (hk : k < 6)
  have h : (opcodeField (packWord f)).getLsbD k = (packWord f).getLsbD (26 + k) := by
    simp [opcodeField, Config.layout, hk]
  rw [h, packWord_getLsbD f (show 26 + k < 32 by omega)]
  simp (disch := omega) only [decide_eq_true, mode_getLsbD_of_ge, reg_getLsbD_of_ge,
    imm_getLsbD_of_ge, Bool.true_and, Bool.and_false, Bool.or_false, Nat.add_sub_cancel_left]

@[simp] theorem modeField_packWord : modeField (packWord f) = f.mode := by
  apply BitVec.eq_of_getLsbD_eq
  intro k (hk : k < 4)
  have h : (modeField (packWord f)).getLsbD k = (packWord f).getLsbD (22 + k) := by
    simp [modeField, Config.layout, hk]
  rw [h, packWord_getLsbD f (show 22 + k < 32 by omega)]
  simp (disch := omega) only [decide_eq_true, decide_eq_false, reg_getLsbD_of_ge,
    imm_getLsbD_of_ge, Bool.true_and, Bool.false_and, Bool.and_false, Bool.or_false, Bool.false_or, Nat.add_sub_cancel_left]

@[simp] theorem r1Field_packWord : r1Field (packWord f) = f.r1 := by
  apply BitVec.eq_of_getLsbD_eq
  intro k (hk : k < 3)
  have h : (r1Field (packWord f)).getLsbD k = (packWord f).getLsbD (19 + k) := by
    simp [r1Field, Config.layout, hk]
  rw [h, packWord_getLsbD f (show 19 + k < 32 by omega)]
  simp (disch := omega) only [decide_eq_true, decide_eq_false, reg_getLsbD_of_ge,
    imm_getLsbD_of_ge, Bool.true_and, Bool.false_and, Bool.and_false, Bool.or_false, Bool.false_or, Nat.add_sub_cancel_left]

@[simp] theorem r2Field_packWord : r2Field (packWord f) = f.r2 := by
  apply BitVec.eq_of_getLsbD_eq
  intro k (hk : k < 3)
  have h : (r2Field (packWord f)).getLsbD k = (packWord f).getLsbD (16 + k) := by
    simp [r2Field, Config.layout, hk]
  rw [h, packWord_getLsbD f (show 16 + k < 32 by omega)]
  simp (disch := omega) only [decide_eq_true, decide_eq_false, reg_getLsbD_of_ge,
    imm_getLsbD_of_ge, Bool.true_and, Bool.false_and, Bool.and_false, Bool.or_false, Bool.false_or, Nat.add_sub_cancel_left]

@[simp] theorem r3Field_packWord (h0 : f.v1 = 0) : r3Field (packWord f) = f.r3 := by
  apply BitVec.eq_of_getLsbD_eq
  have hz : ∀ m, f.v1.getLsbD m = false := by simp [h0]
  intro k (hk : k < 3)
  have h : (r3Field (packWord f)).getLsbD k = (packWord f).getLsbD (13 + k) := by
    simp [r3Field, Config.layout, hk]
  rw [h, packWord_getLsbD f (show 13 + k < 32 by omega)]
  simp (disch := omega) only [hz, decide_eq_true, decide_eq_false,
    imm_getLsbD_of_ge, Bool.true_and, Bool.false_and, Bool.or_false, Bool.false_or, Nat.add_sub_cancel_left]

@[simp] theorem v1Field_packWord (h0 : f.r3 = 0) : v1Field (packWord f) = f.v1 := by
  apply BitVec.eq_of_getLsbD_eq
  have hz : ∀ m, f.r3.getLsbD m = false := by simp [h0]
  intro k (hk : k < 8)
  have h : (v1Field (packWord f)).getLsbD k = (packWord f).getLsbD (8 + k) := by
    simp [v1Field, Config.layout, hk]
  rw [h, packWord_getLsbD f (show 8 + k < 32 by omega)]
  simp (disch := omega) only [hz, decide_eq_true, decide_eq_false,
    Bool.true_and, Bool.false_and, Bool.and_false, imm_getLsbD_of_ge, Bool.or_false, Bool.false_or, Nat.add_sub_cancel_left]

@[simp] theorem v2Field_packWord : v2Field (packWord f) = f.v2 := by
  apply BitVec.eq_of_getLsbD_eq
  intro k (hk : k < 8)
  have h : (v2Field (packWord f)).getLsbD k = (packWord f).getLsbD (0 + k) := by
    simp [v2Field, Config.layout, hk]
  rw [h, packWord_getLsbD f (show 0 + k < 32 by omega)]
  simp (disch := omega) only [decide_eq_false,
    Bool.false_and, Bool.or_false, Bool.false_or, Nat.zero_add]

@[simp] theorem vxField_packWord (h : f.r3 = 0) : vxField (packWord f) = f.v1 ++ f.v2 := by
  simp [vxField, h]

end fields

/-! ### Bytes -/

/-- Four bytes in increasing address order, big-endian (20_memory.md R54). -/
theorem wordOfBytes_four (b0 b1 b2 b3 : Byte) : wordOfBytes [b0, b1, b2, b3] = b0 ++ b1 ++ b2 ++ b3 := by
  apply BitVec.eq_of_getLsbD_eq
  intro k hk
  simp only [wordOfBytes, List.foldl, BitVec.getLsbD_or, BitVec.getLsbD_shiftLeft, BitVec.getLsbD_setWidth, BitVec.getLsbD_append]
  by_cases h0 : k < 8
  · simp [h0, hk]
  by_cases h1 : k < 16
  · simp (disch := omega) [h0, hk, show k - 8 < 8 by omega, show k - 8 < 32 by omega]
  by_cases h2 : k < 24
  · simp (disch := omega) [h0, hk, show ¬ k - 8 < 8 by omega, show k - 8 - 8 < 8 by omega, show k - 8 < 32 by omega,
      show k - 8 - 8 < 32 by omega]
  · simp (disch := omega) [h0, hk, show ¬ k - 8 < 8 by omega, show ¬ k - 8 - 8 < 8 by omega, show k - 8 < 32 by omega,
      show k - 8 - 8 < 32 by omega, show k - 8 - 8 - 8 < 32 by omega]

/-! ### Decoding a packed word -/

/-- Decoding goes by the opcode and mode fields alone (30_encoding.md R83), and then reads the operands. -/
theorem decode_of_fields {w : Dword} {o : Op} {m : Mode} (ho : opcodeField w = opcodeOf o) (hm : modeField w = modeCode m) :
    decode w = decodedForm (formOf o m (operandFields w)) := by
  simp only [decode, Config.params_layout, ho, hm, opOf_opcodeOf, modeOf_modeCode]

/-- The operand fields of an instruction's own word. -/
abbrev Instr.ownFields (i : Instr) : OperandFields := operandFields (encode i)

theorem opcodeField_encode (i : Instr) : opcodeField (encode i) = opcodeOf i.parts.1 := by
  rw [encode, Config.params_layout, opcodeField_packWord]
  cases i.parts.2.2 <;> rfl

theorem modeField_encode (i : Instr) : modeField (encode i) = modeCode i.parts.2.1 := by
  rw [encode, Config.params_layout, modeField_packWord]
  cases i.parts.2.2 <;> rfl

/-- An instruction whose operands are read back from its word decodes to itself. -/
theorem decode_encode_of {i : Instr} (h : formOf i.parts.1 i.parts.2.1 i.ownFields = some i) (hw : WellFormed i = true) :
    decode (encode i) = .form i := by
  rw [decode_of_fields (opcodeField_encode i) (modeField_encode i), h]
  simp [decodedForm, hw]

/-! ### The operands of a packed word, read back -/

theorem extract_append_word (vx : Word) : vx.extractLsb' 8 8 ++ vx.extractLsb' 0 8 = vx := by
  apply BitVec.eq_of_getLsbD_eq
  intro k hk
  simp only [BitVec.getLsbD_append, BitVec.getLsbD_extractLsb']
  by_cases h : k < 8
  · simp [h]
  · simp [h, show k - 8 < 8 by omega, show 8 + (k - 8) = k by omega]

section operands

variable (op : BitVec Config.opcodeBits) (mode : BitVec Config.modeBits)

/-- The operand fields of the word with operands `x`. -/
abbrev OperandBits.readBack (x : OperandBits) : OperandFields := operandFields (packWord (x.fields op mode regCode))

theorem one_back (f : Reg → Instr) (r1 : Reg) :
    some (f ((OperandBits.one r1).readBack op mode).r1) = some (f r1) := by
  simp [operandFields, OperandBits.fields]

theorem two_back (f : Reg → Reg → Instr) (r1 r2 : Reg) :
    some (f ((OperandBits.two r1 r2).readBack op mode).r1 ((OperandBits.two r1 r2).readBack op mode).r2) = some (f r1 r2) := by
  simp [operandFields, OperandBits.fields]

theorem three_back (f : Reg → Reg → Reg → Instr) (r1 r2 r3 : Reg) :
    some (f ((OperandBits.three r1 r2 r3).readBack op mode).r1 ((OperandBits.three r1 r2 r3).readBack op mode).r2
      ((OperandBits.three r1 r2 r3).readBack op mode).r3) = some (f r1 r2 r3) := by
  simp [operandFields, OperandBits.fields]

theorem regByte_back (f : Reg → Byte → Instr) (r1 : Reg) (v1 : Byte) :
    some (f ((OperandBits.regByte r1 v1).readBack op mode).r1 ((OperandBits.regByte r1 v1).readBack op mode).v1) =
      some (f r1 v1) := by
  simp [operandFields, OperandBits.fields]

theorem regAddr_back (f : Reg → Word → Instr) (r1 : Reg) (vx : Word) :
    some (f ((OperandBits.regAddr r1 vx).readBack op mode).r1 ((OperandBits.regAddr r1 vx).readBack op mode).vx) =
      some (f r1 vx) := by
  simp [operandFields, OperandBits.fields, extract_append_word]

theorem byte_back (f : Byte → Instr) (v1 : Byte) :
    some (f ((OperandBits.byte v1).readBack op mode).v1) = some (f v1) := by
  simp [operandFields, OperandBits.fields]

theorem addr_back (f : Word → Instr) (vx : Word) :
    some (f ((OperandBits.addr vx).readBack op mode).vx) = some (f vx) := by
  simp [operandFields, OperandBits.fields, extract_append_word]

end operands

end Sys2Proof
end

