-- ==== Sys2Proof/Laws/State.lean ====
section
/-! SUPPORT. One lemma per field per update of State, all true by rfl and tagged simp, so that no later proof unfolds a record
update. -/

namespace Sys2Proof.Machine.State

/-! ### setRegs -/

section setRegs

variable (s : State) (v : Regs)

@[simp] theorem setRegs_regs : (s.setRegs v).regs = v := rfl
@[simp] theorem setRegs_flags : (s.setRegs v).flags = s.flags := rfl
@[simp] theorem setRegs_pc : (s.setRegs v).pc = s.pc := rfl
@[simp] theorem setRegs_sp : (s.setRegs v).sp = s.sp := rfl
@[simp] theorem setRegs_full : (s.setRegs v).full = s.full := rfl
@[simp] theorem setRegs_jmp : (s.setRegs v).jmp = s.jmp := rfl
@[simp] theorem setRegs_cpuState : (s.setRegs v).cpuState = s.cpuState := rfl
@[simp] theorem setRegs_ir : (s.setRegs v).ir = s.ir := rfl
@[simp] theorem setRegs_modeView : (s.setRegs v).modeView = s.modeView := rfl
@[simp] theorem setRegs_intReady : (s.setRegs v).intReady = s.intReady := rfl
@[simp] theorem setRegs_intRequest : (s.setRegs v).intRequest = s.intRequest := rfl
@[simp] theorem setRegs_addrBus : (s.setRegs v).addrBus = s.addrBus := rfl
@[simp] theorem setRegs_dataBus : (s.setRegs v).dataBus = s.dataBus := rfl
@[simp] theorem setRegs_mem : (s.setRegs v).mem = s.mem := rfl
@[simp] theorem setRegs_portData : (s.setRegs v).portData = s.portData := rfl
@[simp] theorem setRegs_portOwner : (s.setRegs v).portOwner = s.portOwner := rfl
@[simp] theorem setRegs_irqQueue : (s.setRegs v).irqQueue = s.irqQueue := rfl

end setRegs

/-! ### setFlags -/

section setFlags

variable (s : State) (v : Flags)

@[simp] theorem setFlags_regs : (s.setFlags v).regs = s.regs := rfl
@[simp] theorem setFlags_flags : (s.setFlags v).flags = v := rfl
@[simp] theorem setFlags_pc : (s.setFlags v).pc = s.pc := rfl
@[simp] theorem setFlags_sp : (s.setFlags v).sp = s.sp := rfl
@[simp] theorem setFlags_full : (s.setFlags v).full = s.full := rfl
@[simp] theorem setFlags_jmp : (s.setFlags v).jmp = s.jmp := rfl
@[simp] theorem setFlags_cpuState : (s.setFlags v).cpuState = s.cpuState := rfl
@[simp] theorem setFlags_ir : (s.setFlags v).ir = s.ir := rfl
@[simp] theorem setFlags_modeView : (s.setFlags v).modeView = s.modeView := rfl
@[simp] theorem setFlags_intReady : (s.setFlags v).intReady = s.intReady := rfl
@[simp] theorem setFlags_intRequest : (s.setFlags v).intRequest = s.intRequest := rfl
@[simp] theorem setFlags_addrBus : (s.setFlags v).addrBus = s.addrBus := rfl
@[simp] theorem setFlags_dataBus : (s.setFlags v).dataBus = s.dataBus := rfl
@[simp] theorem setFlags_mem : (s.setFlags v).mem = s.mem := rfl
@[simp] theorem setFlags_portData : (s.setFlags v).portData = s.portData := rfl
@[simp] theorem setFlags_portOwner : (s.setFlags v).portOwner = s.portOwner := rfl
@[simp] theorem setFlags_irqQueue : (s.setFlags v).irqQueue = s.irqQueue := rfl

end setFlags

/-! ### setPc -/

section setPc

variable (s : State) (v : Word)

@[simp] theorem setPc_regs : (s.setPc v).regs = s.regs := rfl
@[simp] theorem setPc_flags : (s.setPc v).flags = s.flags := rfl
@[simp] theorem setPc_pc : (s.setPc v).pc = v := rfl
@[simp] theorem setPc_sp : (s.setPc v).sp = s.sp := rfl
@[simp] theorem setPc_full : (s.setPc v).full = s.full := rfl
@[simp] theorem setPc_jmp : (s.setPc v).jmp = s.jmp := rfl
@[simp] theorem setPc_cpuState : (s.setPc v).cpuState = s.cpuState := rfl
@[simp] theorem setPc_ir : (s.setPc v).ir = s.ir := rfl
@[simp] theorem setPc_modeView : (s.setPc v).modeView = s.modeView := rfl
@[simp] theorem setPc_intReady : (s.setPc v).intReady = s.intReady := rfl
@[simp] theorem setPc_intRequest : (s.setPc v).intRequest = s.intRequest := rfl
@[simp] theorem setPc_addrBus : (s.setPc v).addrBus = s.addrBus := rfl
@[simp] theorem setPc_dataBus : (s.setPc v).dataBus = s.dataBus := rfl
@[simp] theorem setPc_mem : (s.setPc v).mem = s.mem := rfl
@[simp] theorem setPc_portData : (s.setPc v).portData = s.portData := rfl
@[simp] theorem setPc_portOwner : (s.setPc v).portOwner = s.portOwner := rfl
@[simp] theorem setPc_irqQueue : (s.setPc v).irqQueue = s.irqQueue := rfl

end setPc

/-! ### setStack -/

section setStack

variable (s : State) (p : Byte) (l : Bool)

@[simp] theorem setStack_regs : (s.setStack p l).regs = s.regs := rfl
@[simp] theorem setStack_flags : (s.setStack p l).flags = s.flags := rfl
@[simp] theorem setStack_pc : (s.setStack p l).pc = s.pc := rfl
@[simp] theorem setStack_sp : (s.setStack p l).sp = p := rfl
@[simp] theorem setStack_full : (s.setStack p l).full = l := rfl
@[simp] theorem setStack_jmp : (s.setStack p l).jmp = s.jmp := rfl
@[simp] theorem setStack_cpuState : (s.setStack p l).cpuState = s.cpuState := rfl
@[simp] theorem setStack_ir : (s.setStack p l).ir = s.ir := rfl
@[simp] theorem setStack_modeView : (s.setStack p l).modeView = s.modeView := rfl
@[simp] theorem setStack_intReady : (s.setStack p l).intReady = s.intReady := rfl
@[simp] theorem setStack_intRequest : (s.setStack p l).intRequest = s.intRequest := rfl
@[simp] theorem setStack_addrBus : (s.setStack p l).addrBus = s.addrBus := rfl
@[simp] theorem setStack_dataBus : (s.setStack p l).dataBus = s.dataBus := rfl
@[simp] theorem setStack_mem : (s.setStack p l).mem = s.mem := rfl
@[simp] theorem setStack_portData : (s.setStack p l).portData = s.portData := rfl
@[simp] theorem setStack_portOwner : (s.setStack p l).portOwner = s.portOwner := rfl
@[simp] theorem setStack_irqQueue : (s.setStack p l).irqQueue = s.irqQueue := rfl

end setStack

/-! ### setJmp -/

section setJmp

variable (s : State) (v : Bool)

@[simp] theorem setJmp_regs : (s.setJmp v).regs = s.regs := rfl
@[simp] theorem setJmp_flags : (s.setJmp v).flags = s.flags := rfl
@[simp] theorem setJmp_pc : (s.setJmp v).pc = s.pc := rfl
@[simp] theorem setJmp_sp : (s.setJmp v).sp = s.sp := rfl
@[simp] theorem setJmp_full : (s.setJmp v).full = s.full := rfl
@[simp] theorem setJmp_jmp : (s.setJmp v).jmp = v := rfl
@[simp] theorem setJmp_cpuState : (s.setJmp v).cpuState = s.cpuState := rfl
@[simp] theorem setJmp_ir : (s.setJmp v).ir = s.ir := rfl
@[simp] theorem setJmp_modeView : (s.setJmp v).modeView = s.modeView := rfl
@[simp] theorem setJmp_intReady : (s.setJmp v).intReady = s.intReady := rfl
@[simp] theorem setJmp_intRequest : (s.setJmp v).intRequest = s.intRequest := rfl
@[simp] theorem setJmp_addrBus : (s.setJmp v).addrBus = s.addrBus := rfl
@[simp] theorem setJmp_dataBus : (s.setJmp v).dataBus = s.dataBus := rfl
@[simp] theorem setJmp_mem : (s.setJmp v).mem = s.mem := rfl
@[simp] theorem setJmp_portData : (s.setJmp v).portData = s.portData := rfl
@[simp] theorem setJmp_portOwner : (s.setJmp v).portOwner = s.portOwner := rfl
@[simp] theorem setJmp_irqQueue : (s.setJmp v).irqQueue = s.irqQueue := rfl

end setJmp

/-! ### setCpuState -/

section setCpuState

variable (s : State) (v : CpuState)

@[simp] theorem setCpuState_regs : (s.setCpuState v).regs = s.regs := rfl
@[simp] theorem setCpuState_flags : (s.setCpuState v).flags = s.flags := rfl
@[simp] theorem setCpuState_pc : (s.setCpuState v).pc = s.pc := rfl
@[simp] theorem setCpuState_sp : (s.setCpuState v).sp = s.sp := rfl
@[simp] theorem setCpuState_full : (s.setCpuState v).full = s.full := rfl
@[simp] theorem setCpuState_jmp : (s.setCpuState v).jmp = s.jmp := rfl
@[simp] theorem setCpuState_cpuState : (s.setCpuState v).cpuState = v := rfl
@[simp] theorem setCpuState_ir : (s.setCpuState v).ir = s.ir := rfl
@[simp] theorem setCpuState_modeView : (s.setCpuState v).modeView = s.modeView := rfl
@[simp] theorem setCpuState_intReady : (s.setCpuState v).intReady = s.intReady := rfl
@[simp] theorem setCpuState_intRequest : (s.setCpuState v).intRequest = s.intRequest := rfl
@[simp] theorem setCpuState_addrBus : (s.setCpuState v).addrBus = s.addrBus := rfl
@[simp] theorem setCpuState_dataBus : (s.setCpuState v).dataBus = s.dataBus := rfl
@[simp] theorem setCpuState_mem : (s.setCpuState v).mem = s.mem := rfl
@[simp] theorem setCpuState_portData : (s.setCpuState v).portData = s.portData := rfl
@[simp] theorem setCpuState_portOwner : (s.setCpuState v).portOwner = s.portOwner := rfl
@[simp] theorem setCpuState_irqQueue : (s.setCpuState v).irqQueue = s.irqQueue := rfl

end setCpuState

/-! ### setFetched -/

section setFetched

variable (s : State) (w : Dword) (m : BitVec Config.modeBits)

@[simp] theorem setFetched_regs : (s.setFetched w m).regs = s.regs := rfl
@[simp] theorem setFetched_flags : (s.setFetched w m).flags = s.flags := rfl
@[simp] theorem setFetched_pc : (s.setFetched w m).pc = s.pc := rfl
@[simp] theorem setFetched_sp : (s.setFetched w m).sp = s.sp := rfl
@[simp] theorem setFetched_full : (s.setFetched w m).full = s.full := rfl
@[simp] theorem setFetched_jmp : (s.setFetched w m).jmp = s.jmp := rfl
@[simp] theorem setFetched_cpuState : (s.setFetched w m).cpuState = s.cpuState := rfl
@[simp] theorem setFetched_ir : (s.setFetched w m).ir = w := rfl
@[simp] theorem setFetched_modeView : (s.setFetched w m).modeView = m := rfl
@[simp] theorem setFetched_intReady : (s.setFetched w m).intReady = s.intReady := rfl
@[simp] theorem setFetched_intRequest : (s.setFetched w m).intRequest = s.intRequest := rfl
@[simp] theorem setFetched_addrBus : (s.setFetched w m).addrBus = s.addrBus := rfl
@[simp] theorem setFetched_dataBus : (s.setFetched w m).dataBus = s.dataBus := rfl
@[simp] theorem setFetched_mem : (s.setFetched w m).mem = s.mem := rfl
@[simp] theorem setFetched_portData : (s.setFetched w m).portData = s.portData := rfl
@[simp] theorem setFetched_portOwner : (s.setFetched w m).portOwner = s.portOwner := rfl
@[simp] theorem setFetched_irqQueue : (s.setFetched w m).irqQueue = s.irqQueue := rfl

end setFetched

/-! ### setIntReady -/

section setIntReady

variable (s : State) (v : Bool)

@[simp] theorem setIntReady_regs : (s.setIntReady v).regs = s.regs := rfl
@[simp] theorem setIntReady_flags : (s.setIntReady v).flags = s.flags := rfl
@[simp] theorem setIntReady_pc : (s.setIntReady v).pc = s.pc := rfl
@[simp] theorem setIntReady_sp : (s.setIntReady v).sp = s.sp := rfl
@[simp] theorem setIntReady_full : (s.setIntReady v).full = s.full := rfl
@[simp] theorem setIntReady_jmp : (s.setIntReady v).jmp = s.jmp := rfl
@[simp] theorem setIntReady_cpuState : (s.setIntReady v).cpuState = s.cpuState := rfl
@[simp] theorem setIntReady_ir : (s.setIntReady v).ir = s.ir := rfl
@[simp] theorem setIntReady_modeView : (s.setIntReady v).modeView = s.modeView := rfl
@[simp] theorem setIntReady_intReady : (s.setIntReady v).intReady = v := rfl
@[simp] theorem setIntReady_intRequest : (s.setIntReady v).intRequest = s.intRequest := rfl
@[simp] theorem setIntReady_addrBus : (s.setIntReady v).addrBus = s.addrBus := rfl
@[simp] theorem setIntReady_dataBus : (s.setIntReady v).dataBus = s.dataBus := rfl
@[simp] theorem setIntReady_mem : (s.setIntReady v).mem = s.mem := rfl
@[simp] theorem setIntReady_portData : (s.setIntReady v).portData = s.portData := rfl
@[simp] theorem setIntReady_portOwner : (s.setIntReady v).portOwner = s.portOwner := rfl
@[simp] theorem setIntReady_irqQueue : (s.setIntReady v).irqQueue = s.irqQueue := rfl

end setIntReady

/-! ### setIntRequest -/

section setIntRequest

variable (s : State) (v : Bool)

@[simp] theorem setIntRequest_regs : (s.setIntRequest v).regs = s.regs := rfl
@[simp] theorem setIntRequest_flags : (s.setIntRequest v).flags = s.flags := rfl
@[simp] theorem setIntRequest_pc : (s.setIntRequest v).pc = s.pc := rfl
@[simp] theorem setIntRequest_sp : (s.setIntRequest v).sp = s.sp := rfl
@[simp] theorem setIntRequest_full : (s.setIntRequest v).full = s.full := rfl
@[simp] theorem setIntRequest_jmp : (s.setIntRequest v).jmp = s.jmp := rfl
@[simp] theorem setIntRequest_cpuState : (s.setIntRequest v).cpuState = s.cpuState := rfl
@[simp] theorem setIntRequest_ir : (s.setIntRequest v).ir = s.ir := rfl
@[simp] theorem setIntRequest_modeView : (s.setIntRequest v).modeView = s.modeView := rfl
@[simp] theorem setIntRequest_intReady : (s.setIntRequest v).intReady = s.intReady := rfl
@[simp] theorem setIntRequest_intRequest : (s.setIntRequest v).intRequest = v := rfl
@[simp] theorem setIntRequest_addrBus : (s.setIntRequest v).addrBus = s.addrBus := rfl
@[simp] theorem setIntRequest_dataBus : (s.setIntRequest v).dataBus = s.dataBus := rfl
@[simp] theorem setIntRequest_mem : (s.setIntRequest v).mem = s.mem := rfl
@[simp] theorem setIntRequest_portData : (s.setIntRequest v).portData = s.portData := rfl
@[simp] theorem setIntRequest_portOwner : (s.setIntRequest v).portOwner = s.portOwner := rfl
@[simp] theorem setIntRequest_irqQueue : (s.setIntRequest v).irqQueue = s.irqQueue := rfl

end setIntRequest

/-! ### setBuses -/

section setBuses

variable (s : State) (a : Word) (x : Byte)

@[simp] theorem setBuses_regs : (s.setBuses a x).regs = s.regs := rfl
@[simp] theorem setBuses_flags : (s.setBuses a x).flags = s.flags := rfl
@[simp] theorem setBuses_pc : (s.setBuses a x).pc = s.pc := rfl
@[simp] theorem setBuses_sp : (s.setBuses a x).sp = s.sp := rfl
@[simp] theorem setBuses_full : (s.setBuses a x).full = s.full := rfl
@[simp] theorem setBuses_jmp : (s.setBuses a x).jmp = s.jmp := rfl
@[simp] theorem setBuses_cpuState : (s.setBuses a x).cpuState = s.cpuState := rfl
@[simp] theorem setBuses_ir : (s.setBuses a x).ir = s.ir := rfl
@[simp] theorem setBuses_modeView : (s.setBuses a x).modeView = s.modeView := rfl
@[simp] theorem setBuses_intReady : (s.setBuses a x).intReady = s.intReady := rfl
@[simp] theorem setBuses_intRequest : (s.setBuses a x).intRequest = s.intRequest := rfl
@[simp] theorem setBuses_addrBus : (s.setBuses a x).addrBus = a := rfl
@[simp] theorem setBuses_dataBus : (s.setBuses a x).dataBus = x := rfl
@[simp] theorem setBuses_mem : (s.setBuses a x).mem = s.mem := rfl
@[simp] theorem setBuses_portData : (s.setBuses a x).portData = s.portData := rfl
@[simp] theorem setBuses_portOwner : (s.setBuses a x).portOwner = s.portOwner := rfl
@[simp] theorem setBuses_irqQueue : (s.setBuses a x).irqQueue = s.irqQueue := rfl

end setBuses

/-! ### setMem -/

section setMem

variable (s : State) (v : Memory)

@[simp] theorem setMem_regs : (s.setMem v).regs = s.regs := rfl
@[simp] theorem setMem_flags : (s.setMem v).flags = s.flags := rfl
@[simp] theorem setMem_pc : (s.setMem v).pc = s.pc := rfl
@[simp] theorem setMem_sp : (s.setMem v).sp = s.sp := rfl
@[simp] theorem setMem_full : (s.setMem v).full = s.full := rfl
@[simp] theorem setMem_jmp : (s.setMem v).jmp = s.jmp := rfl
@[simp] theorem setMem_cpuState : (s.setMem v).cpuState = s.cpuState := rfl
@[simp] theorem setMem_ir : (s.setMem v).ir = s.ir := rfl
@[simp] theorem setMem_modeView : (s.setMem v).modeView = s.modeView := rfl
@[simp] theorem setMem_intReady : (s.setMem v).intReady = s.intReady := rfl
@[simp] theorem setMem_intRequest : (s.setMem v).intRequest = s.intRequest := rfl
@[simp] theorem setMem_addrBus : (s.setMem v).addrBus = s.addrBus := rfl
@[simp] theorem setMem_dataBus : (s.setMem v).dataBus = s.dataBus := rfl
@[simp] theorem setMem_mem : (s.setMem v).mem = v := rfl
@[simp] theorem setMem_portData : (s.setMem v).portData = s.portData := rfl
@[simp] theorem setMem_portOwner : (s.setMem v).portOwner = s.portOwner := rfl
@[simp] theorem setMem_irqQueue : (s.setMem v).irqQueue = s.irqQueue := rfl

end setMem

/-! ### setPortData -/

section setPortData

variable (s : State) (v : PortTable Byte)

@[simp] theorem setPortData_regs : (s.setPortData v).regs = s.regs := rfl
@[simp] theorem setPortData_flags : (s.setPortData v).flags = s.flags := rfl
@[simp] theorem setPortData_pc : (s.setPortData v).pc = s.pc := rfl
@[simp] theorem setPortData_sp : (s.setPortData v).sp = s.sp := rfl
@[simp] theorem setPortData_full : (s.setPortData v).full = s.full := rfl
@[simp] theorem setPortData_jmp : (s.setPortData v).jmp = s.jmp := rfl
@[simp] theorem setPortData_cpuState : (s.setPortData v).cpuState = s.cpuState := rfl
@[simp] theorem setPortData_ir : (s.setPortData v).ir = s.ir := rfl
@[simp] theorem setPortData_modeView : (s.setPortData v).modeView = s.modeView := rfl
@[simp] theorem setPortData_intReady : (s.setPortData v).intReady = s.intReady := rfl
@[simp] theorem setPortData_intRequest : (s.setPortData v).intRequest = s.intRequest := rfl
@[simp] theorem setPortData_addrBus : (s.setPortData v).addrBus = s.addrBus := rfl
@[simp] theorem setPortData_dataBus : (s.setPortData v).dataBus = s.dataBus := rfl
@[simp] theorem setPortData_mem : (s.setPortData v).mem = s.mem := rfl
@[simp] theorem setPortData_portData : (s.setPortData v).portData = v := rfl
@[simp] theorem setPortData_portOwner : (s.setPortData v).portOwner = s.portOwner := rfl
@[simp] theorem setPortData_irqQueue : (s.setPortData v).irqQueue = s.irqQueue := rfl

end setPortData

/-! ### setPortOwner -/

section setPortOwner

variable (s : State) (v : PortTable DeviceId)

@[simp] theorem setPortOwner_regs : (s.setPortOwner v).regs = s.regs := rfl
@[simp] theorem setPortOwner_flags : (s.setPortOwner v).flags = s.flags := rfl
@[simp] theorem setPortOwner_pc : (s.setPortOwner v).pc = s.pc := rfl
@[simp] theorem setPortOwner_sp : (s.setPortOwner v).sp = s.sp := rfl
@[simp] theorem setPortOwner_full : (s.setPortOwner v).full = s.full := rfl
@[simp] theorem setPortOwner_jmp : (s.setPortOwner v).jmp = s.jmp := rfl
@[simp] theorem setPortOwner_cpuState : (s.setPortOwner v).cpuState = s.cpuState := rfl
@[simp] theorem setPortOwner_ir : (s.setPortOwner v).ir = s.ir := rfl
@[simp] theorem setPortOwner_modeView : (s.setPortOwner v).modeView = s.modeView := rfl
@[simp] theorem setPortOwner_intReady : (s.setPortOwner v).intReady = s.intReady := rfl
@[simp] theorem setPortOwner_intRequest : (s.setPortOwner v).intRequest = s.intRequest := rfl
@[simp] theorem setPortOwner_addrBus : (s.setPortOwner v).addrBus = s.addrBus := rfl
@[simp] theorem setPortOwner_dataBus : (s.setPortOwner v).dataBus = s.dataBus := rfl
@[simp] theorem setPortOwner_mem : (s.setPortOwner v).mem = s.mem := rfl
@[simp] theorem setPortOwner_portData : (s.setPortOwner v).portData = s.portData := rfl
@[simp] theorem setPortOwner_portOwner : (s.setPortOwner v).portOwner = v := rfl
@[simp] theorem setPortOwner_irqQueue : (s.setPortOwner v).irqQueue = s.irqQueue := rfl

end setPortOwner

/-! ### setIrqQueue -/

section setIrqQueue

variable (s : State) (v : List IrqRecord)

@[simp] theorem setIrqQueue_regs : (s.setIrqQueue v).regs = s.regs := rfl
@[simp] theorem setIrqQueue_flags : (s.setIrqQueue v).flags = s.flags := rfl
@[simp] theorem setIrqQueue_pc : (s.setIrqQueue v).pc = s.pc := rfl
@[simp] theorem setIrqQueue_sp : (s.setIrqQueue v).sp = s.sp := rfl
@[simp] theorem setIrqQueue_full : (s.setIrqQueue v).full = s.full := rfl
@[simp] theorem setIrqQueue_jmp : (s.setIrqQueue v).jmp = s.jmp := rfl
@[simp] theorem setIrqQueue_cpuState : (s.setIrqQueue v).cpuState = s.cpuState := rfl
@[simp] theorem setIrqQueue_ir : (s.setIrqQueue v).ir = s.ir := rfl
@[simp] theorem setIrqQueue_modeView : (s.setIrqQueue v).modeView = s.modeView := rfl
@[simp] theorem setIrqQueue_intReady : (s.setIrqQueue v).intReady = s.intReady := rfl
@[simp] theorem setIrqQueue_intRequest : (s.setIrqQueue v).intRequest = s.intRequest := rfl
@[simp] theorem setIrqQueue_addrBus : (s.setIrqQueue v).addrBus = s.addrBus := rfl
@[simp] theorem setIrqQueue_dataBus : (s.setIrqQueue v).dataBus = s.dataBus := rfl
@[simp] theorem setIrqQueue_mem : (s.setIrqQueue v).mem = s.mem := rfl
@[simp] theorem setIrqQueue_portData : (s.setIrqQueue v).portData = s.portData := rfl
@[simp] theorem setIrqQueue_portOwner : (s.setIrqQueue v).portOwner = s.portOwner := rfl
@[simp] theorem setIrqQueue_irqQueue : (s.setIrqQueue v).irqQueue = v := rfl

end setIrqQueue

end Sys2Proof.Machine.State
end

