-- ==== Sys2Proof/Laws/Table.lean ====
section
/-! SUPPORT. The laws of the sparse tables: reading after storing, every operation keeps the canonical form, an image is read
back. They hold of every table, canonical or not, but for the two about the form. -/

namespace Sys2Proof.Machine

variable {β : Type} {d : β}

/-! ### Reading after storing -/

theorem lookup_eraseIndex_same (n : Nat) (t : List (Nat × β)) : lookup d (eraseIndex n t) n = d := by
  induction t with
  | nil => rfl
  | cons e rest ih =>
    obtain ⟨k, v⟩ := e
    by_cases h : k = n <;> simp [eraseIndex, lookup, h, ih]

theorem lookup_eraseIndex_other {n m : Nat} (h : m ≠ n) (t : List (Nat × β)) :
    lookup d (eraseIndex n t) m = lookup d t m := by
  induction t with
  | nil => rfl
  | cons e rest ih =>
    obtain ⟨k, v⟩ := e
    by_cases hk : k = n
    · subst hk; simp [eraseIndex, lookup, ih, Ne.symm h]
    · simp [eraseIndex, lookup, hk, ih]

theorem lookup_insertIndex_same {n : Nat} {x : β} {t : List (Nat × β)} (h : ∀ e ∈ t, e.1 ≠ n) :
    lookup d (insertIndex n x t) n = x := by
  induction t with
  | nil => simp [insertIndex, lookup]
  | cons e rest ih =>
    obtain ⟨k, v⟩ := e
    have hk : k ≠ n := h (k, v) (by simp)
    by_cases hn : n < k
    · simp [insertIndex, lookup, hn]
    · simp [insertIndex, lookup, hn, hk, ih fun e he => h e (by simp [he])]

theorem lookup_insertIndex_other {n m : Nat} (h : m ≠ n) (x : β) (t : List (Nat × β)) :
    lookup d (insertIndex n x t) m = lookup d t m := by
  induction t with
  | nil => simp [insertIndex, lookup, Ne.symm h]
  | cons e rest ih =>
    obtain ⟨k, v⟩ := e
    by_cases hn : n < k
    · simp [insertIndex, lookup, hn, Ne.symm h]
    · simp [insertIndex, lookup, hn, ih]

theorem mem_eraseIndex {n : Nat} {t : List (Nat × β)} {e : Nat × β} (h : e ∈ eraseIndex n t) : e ∈ t ∧ e.1 ≠ n := by
  induction t with
  | nil => simp [eraseIndex] at h
  | cons f rest ih =>
    obtain ⟨k, v⟩ := f
    by_cases hk : k = n
    · simp only [eraseIndex, hk, if_true] at h; exact ⟨by simp [(ih h).1], (ih h).2⟩
    · simp only [eraseIndex, hk, if_false, List.mem_cons] at h
      rcases h with rfl | h
      · exact ⟨by simp, hk⟩
      · exact ⟨by simp [(ih h).1], (ih h).2⟩

variable [DecidableEq β]

/-- Reading the index just stored to gives the stored value. -/
@[simp] theorem lookup_store_same (t : List (Nat × β)) (n : Nat) (x : β) : lookup d (store d t n x) n = x := by
  by_cases h : x = d
  · simp [store, h, lookup_eraseIndex_same]
  · simp [store, h, lookup_insertIndex_same fun e he => (mem_eraseIndex he).2]

/-- Storing leaves every other index alone. -/
theorem lookup_store_other {n m : Nat} (h : m ≠ n) (t : List (Nat × β)) (x : β) :
    lookup d (store d t n x) m = lookup d t m := by
  by_cases hx : x = d <;> simp [store, hx, lookup_insertIndex_other h, lookup_eraseIndex_other h]

/-- What every index reads as after a store. -/
theorem lookup_store (t : List (Nat × β)) (n m : Nat) (x : β) :
    lookup d (store d t n x) m = if m = n then x else lookup d t m := by
  by_cases h : m = n
  · subst h; simp
  · simp [h, lookup_store_other h]

/-! ### The canonical form -/

variable {bound : Nat}

theorem canonical_cons {k : Nat} {v : β} {t : List (Nat × β)} :
    canonical bound d ((k, v) :: t) = true ↔
      k < bound ∧ v ≠ d ∧ (∀ e ∈ t, k < e.1) ∧ canonical bound d t = true := by
  simp [canonical, and_assoc]

theorem canonical_eraseIndex (n : Nat) {t : List (Nat × β)} (h : canonical bound d t = true) :
    canonical bound d (eraseIndex n t) = true := by
  induction t with
  | nil => exact h
  | cons e rest ih =>
    obtain ⟨k, v⟩ := e
    obtain ⟨hk, hv, hr, ht⟩ := canonical_cons.1 h
    by_cases hn : k = n
    · simpa [eraseIndex, hn] using ih ht
    · simp only [eraseIndex, hn, if_false]
      exact canonical_cons.2 ⟨hk, hv, fun e he => hr e (mem_eraseIndex he).1, ih ht⟩

omit [DecidableEq β] in
theorem mem_insertIndex {n : Nat} {x : β} {t : List (Nat × β)} {e : Nat × β} (h : e ∈ insertIndex n x t) :
    e = (n, x) ∨ e ∈ t := by
  induction t with
  | nil => simpa [insertIndex] using h
  | cons f rest ih =>
    obtain ⟨k, v⟩ := f
    by_cases hn : n < k
    · simpa [insertIndex, hn] using h
    · simp only [insertIndex, hn, if_false, List.mem_cons] at h
      rcases h with rfl | h
      · simp
      · rcases ih h with h | h <;> simp [h]

theorem canonical_insertIndex {n : Nat} {x : β} (hn : n < bound) (hx : x ≠ d) {t : List (Nat × β)}
    (hfree : ∀ e ∈ t, e.1 ≠ n) (h : canonical bound d t = true) : canonical bound d (insertIndex n x t) = true := by
  induction t with
  | nil => exact canonical_cons.2 ⟨hn, hx, by simp, rfl⟩
  | cons e rest ih =>
    obtain ⟨k, v⟩ := e
    obtain ⟨hk, hv, hr, ht⟩ := canonical_cons.1 h
    have hne : k ≠ n := hfree (k, v) (by simp)
    by_cases hlt : n < k
    · simp only [insertIndex, hlt, if_true]
      refine canonical_cons.2 ⟨hn, hx, ?_, h⟩
      intro f hf
      rcases List.mem_cons.1 hf with rfl | hf
      · exact hlt
      · exact lt_trans hlt (hr f hf)
    · simp only [insertIndex, hlt, if_false]
      refine canonical_cons.2 ⟨hk, hv, ?_, ih (fun f hf => hfree f (by simp [hf])) ht⟩
      intro f hf
      rcases mem_insertIndex hf with rfl | hf
      · show k < n; omega
      · exact hr f hf

/-- A store inside the bound keeps the canonical form. -/
theorem canonical_store {n : Nat} (hn : n < bound) (x : β) {t : List (Nat × β)} (h : canonical bound d t = true) :
    canonical bound d (store d t n x) = true := by
  by_cases hx : x = d
  · simpa [store, hx] using canonical_eraseIndex n h
  · simpa [store, hx] using
      canonical_insertIndex hn hx (fun e he => (mem_eraseIndex he).2) (canonical_eraseIndex n h)

/-- Nothing is listed outside a canonical table's bound. -/
theorem lookup_of_le {t : List (Nat × β)} (h : canonical bound d t = true) {n : Nat} (hn : bound ≤ n) : lookup d t n = d := by
  induction t with
  | nil => rfl
  | cons e rest ih =>
    obtain ⟨k, v⟩ := e
    obtain ⟨hk, -, -, ht⟩ := canonical_cons.1 h
    have : k ≠ n := by omega
    simp [lookup, this, ih ht]

/-! ### Images -/

theorem mem_tableOf {first : Nat} {l : List β} {e : Nat × β} (h : e ∈ tableOf d first l) :
    first ≤ e.1 ∧ e.1 < first + l.length := by
  induction l generalizing first with
  | nil => simp [tableOf] at h
  | cons v rest ih =>
    have step : e ∈ tableOf d (first + 1) rest → first ≤ e.1 ∧ e.1 < first + (v :: rest).length := by
      intro he; have := ih he; simp only [List.length_cons]; omega
    by_cases hv : v = d
    · simp only [tableOf, hv, if_true] at h; simpa [hv] using step h
    · simp only [tableOf, hv, if_false, List.mem_cons] at h
      rcases h with rfl | h
      · simp
      · exact step h

theorem canonical_tableOf {first : Nat} {l : List β} (h : first + l.length ≤ bound) :
    canonical bound d (tableOf d first l) = true := by
  induction l generalizing first with
  | nil => rfl
  | cons v rest ih =>
    simp only [List.length_cons] at h
    by_cases hv : v = d
    · simpa [tableOf, hv] using ih (first := first + 1) (by omega)
    · simp only [tableOf, hv, if_false]
      refine canonical_cons.2 ⟨by omega, hv, fun e he => ?_, ih (by omega)⟩
      have := mem_tableOf he; omega

theorem lookup_tableOf_lt {first n : Nat} (h : n < first) (l : List β) : lookup d (tableOf d first l) n = d := by
  induction l generalizing first with
  | nil => rfl
  | cons v rest ih =>
    have hne : first ≠ n := by omega
    by_cases hv : v = d <;> simp [tableOf, lookup, hv, hne, ih (show n < first + 1 by omega)]

/-- The table of a list of values reads them back. -/
theorem lookup_tableOf (first k : Nat) (l : List β) : lookup d (tableOf d first l) (first + k) = l.getD k d := by
  induction l generalizing first k with
  | nil => simp [tableOf, lookup]
  | cons v rest ih =>
    cases k with
    | zero =>
      by_cases hv : v = d
      · simp [tableOf, hv, lookup_tableOf_lt]
      · simp [tableOf, lookup, hv]
    | succ k =>
      have e : first + (k + 1) = first + 1 + k := by omega
      have hne : first ≠ first + 1 + k := by omega
      by_cases hv : v = d
      · simp only [tableOf, hv, if_true, e, ih]; simp
      · simp only [tableOf, hv, if_false, lookup, e, hne, ih]; simp

/-! ### Memory and the port tables -/

theorem Memory.read_write (m : Memory) (a x : Word) (v : Byte) :
    (m.write a v).read x = if x = a then v else m.read x := by
  simp [Memory.read, Memory.write, lookup_store, BitVec.toNat_inj]

/-- A write keeps the canonical form. -/
theorem Memory.wf_write {m : Memory} (h : m.wf = true) (a : Word) (v : Byte) : (m.write a v).wf = true :=
  canonical_store a.isLt v h

/-- A whole image is in canonical form. -/
theorem Memory.wf_ofImage {image : List Byte} (h : image.length = Config.memSize) : (Memory.ofImage image).wf = true :=
  canonical_tableOf (by omega)

end Sys2Proof.Machine
end

