-- ==== Sys2Proof/Laws/Ops.lean ====
section
/-! SUPPORT. The laws of the flag computations and of the named operations: for each accessor what every update leaves of it, and
for each shared operation one lemma that says once everything it can do. -/

namespace Sys2Proof.Machine

/-! ### Flags -/

section Flags

variable (f : Flags) (c : Bool) (r a b : Byte)

@[simp] theorem Flags.withZN_carry : (f.withZN r).carry = f.carry := rfl
@[simp] theorem Flags.withZN_equal : (f.withZN r).equal = f.equal := rfl
@[simp] theorem Flags.withZN_interrupt : (f.withZN r).interrupt = f.interrupt := rfl
@[simp] theorem Flags.withZN_negative : (f.withZN r).negative = r.msb := rfl
@[simp] theorem Flags.withZN_superior : (f.withZN r).superior = f.superior := rfl
@[simp] theorem Flags.withZN_zero : (f.withZN r).zero = decide (r = 0) := rfl
@[simp] theorem Flags.withZN_inferior : (f.withZN r).inferior = f.inferior := rfl
@[simp] theorem Flags.withZN_halt : (f.withZN r).halt = f.halt := rfl

@[simp] theorem Flags.withCZN_carry : (f.withCZN c r).carry = c := rfl
@[simp] theorem Flags.withCZN_equal : (f.withCZN c r).equal = f.equal := rfl
@[simp] theorem Flags.withCZN_interrupt : (f.withCZN c r).interrupt = f.interrupt := rfl
@[simp] theorem Flags.withCZN_negative : (f.withCZN c r).negative = r.msb := rfl
@[simp] theorem Flags.withCZN_superior : (f.withCZN c r).superior = f.superior := rfl
@[simp] theorem Flags.withCZN_zero : (f.withCZN c r).zero = decide (r = 0) := rfl
@[simp] theorem Flags.withCZN_inferior : (f.withCZN c r).inferior = f.inferior := rfl
@[simp] theorem Flags.withCZN_halt : (f.withCZN c r).halt = f.halt := rfl

@[simp] theorem Flags.withCZ_carry : (f.withCZ c r).carry = c := rfl
@[simp] theorem Flags.withCZ_equal : (f.withCZ c r).equal = f.equal := rfl
@[simp] theorem Flags.withCZ_interrupt : (f.withCZ c r).interrupt = f.interrupt := rfl
@[simp] theorem Flags.withCZ_negative : (f.withCZ c r).negative = f.negative := rfl
@[simp] theorem Flags.withCZ_superior : (f.withCZ c r).superior = f.superior := rfl
@[simp] theorem Flags.withCZ_zero : (f.withCZ c r).zero = decide (r = 0) := rfl
@[simp] theorem Flags.withCZ_inferior : (f.withCZ c r).inferior = f.inferior := rfl
@[simp] theorem Flags.withCZ_halt : (f.withCZ c r).halt = f.halt := rfl

@[simp] theorem Flags.withCompare_carry : (f.withCompare a b).carry = f.carry := rfl
@[simp] theorem Flags.withCompare_equal : (f.withCompare a b).equal = decide (a = b) := rfl
@[simp] theorem Flags.withCompare_interrupt : (f.withCompare a b).interrupt = f.interrupt := rfl
@[simp] theorem Flags.withCompare_negative : (f.withCompare a b).negative = f.negative := rfl
@[simp] theorem Flags.withCompare_superior : (f.withCompare a b).superior = decide (a.toNat > b.toNat) := rfl
@[simp] theorem Flags.withCompare_zero : (f.withCompare a b).zero = f.zero := rfl
@[simp] theorem Flags.withCompare_inferior : (f.withCompare a b).inferior = decide (a.toNat < b.toNat) := rfl
@[simp] theorem Flags.withCompare_halt : (f.withCompare a b).halt = f.halt := rfl

end Flags

/-! ### Registers -/

@[simp] theorem Regs.get_set_same (g : Regs) (r : Reg) (v : Byte) : (g.set r v).get r = v := by cases r <;> rfl

theorem Regs.get_set_other {r q : Reg} (h : q ≠ r) (g : Regs) (v : Byte) : (g.set r v).get q = g.get q := by
  cases r <;> cases q <;> first | rfl | exact absurd rfl h

@[simp] theorem readReg_writeReg_same (r : Reg) (v : Byte) (s : State) : readReg r (writeReg r v s) = v :=
  Regs.get_set_same s.regs r v

theorem readReg_writeReg_other {r q : Reg} (h : q ≠ r) (v : Byte) (s : State) :
    readReg q (writeReg r v s) = readReg q s :=
  Regs.get_set_other h s.regs v

/-- What every register reads as after a register write. -/
theorem readReg_writeReg (r q : Reg) (v : Byte) (s : State) :
    readReg q (writeReg r v s) = if q = r then v else readReg q s := by
  by_cases h : q = r
  · subst h; simp
  · simp [h, readReg_writeReg_other h]

section writeReg

variable (r : Reg) (v : Byte) (s : State)

@[simp] theorem writeReg_flags : (writeReg r v s).flags = s.flags := rfl
@[simp] theorem writeReg_pc : (writeReg r v s).pc = s.pc := rfl
@[simp] theorem writeReg_sp : (writeReg r v s).sp = s.sp := rfl
@[simp] theorem writeReg_full : (writeReg r v s).full = s.full := rfl
@[simp] theorem writeReg_jmp : (writeReg r v s).jmp = s.jmp := rfl
@[simp] theorem writeReg_cpuState : (writeReg r v s).cpuState = s.cpuState := rfl
@[simp] theorem writeReg_ir : (writeReg r v s).ir = s.ir := rfl
@[simp] theorem writeReg_modeView : (writeReg r v s).modeView = s.modeView := rfl
@[simp] theorem writeReg_intReady : (writeReg r v s).intReady = s.intReady := rfl
@[simp] theorem writeReg_intRequest : (writeReg r v s).intRequest = s.intRequest := rfl
@[simp] theorem writeReg_addrBus : (writeReg r v s).addrBus = s.addrBus := rfl
@[simp] theorem writeReg_dataBus : (writeReg r v s).dataBus = s.dataBus := rfl
@[simp] theorem writeReg_mem : (writeReg r v s).mem = s.mem := rfl
@[simp] theorem writeReg_portData : (writeReg r v s).portData = s.portData := rfl
@[simp] theorem writeReg_portOwner : (writeReg r v s).portOwner = s.portOwner := rfl
@[simp] theorem writeReg_irqQueue : (writeReg r v s).irqQueue = s.irqQueue := rfl
@[simp] theorem memRead_writeReg (a : Word) : memRead a (writeReg r v s) = memRead a s := rfl
@[simp] theorem portRead_writeReg (p : Byte) : portRead p (writeReg r v s) = portRead p s := rfl
@[simp] theorem ownerOf_writeReg (p : Nat) : ownerOf p (writeReg r v s) = ownerOf p s := rfl

end writeReg

/-! ### Accessors through updates -/

section readReg

variable (r : Reg) (s : State)

@[simp] theorem readReg_setFlags (v : Flags) : readReg r (s.setFlags v) = readReg r s := rfl
@[simp] theorem readReg_setPc (v : Word) : readReg r (s.setPc v) = readReg r s := rfl
@[simp] theorem readReg_setStack (p : Byte) (l : Bool) : readReg r (s.setStack p l) = readReg r s := rfl
@[simp] theorem readReg_setJmp (v : Bool) : readReg r (s.setJmp v) = readReg r s := rfl
@[simp] theorem readReg_setCpuState (v : CpuState) : readReg r (s.setCpuState v) = readReg r s := rfl
@[simp] theorem readReg_setFetched (w : Dword) (m : BitVec Config.modeBits) : readReg r (s.setFetched w m) = readReg r s := rfl
@[simp] theorem readReg_setIntReady (v : Bool) : readReg r (s.setIntReady v) = readReg r s := rfl
@[simp] theorem readReg_setIntRequest (v : Bool) : readReg r (s.setIntRequest v) = readReg r s := rfl
@[simp] theorem readReg_setBuses (a : Word) (x : Byte) : readReg r (s.setBuses a x) = readReg r s := rfl
@[simp] theorem readReg_setMem (v : Memory) : readReg r (s.setMem v) = readReg r s := rfl
@[simp] theorem readReg_setPortData (v : PortTable Byte) : readReg r (s.setPortData v) = readReg r s := rfl
@[simp] theorem readReg_setPortOwner (v : PortTable DeviceId) : readReg r (s.setPortOwner v) = readReg r s := rfl
@[simp] theorem readReg_setIrqQueue (v : List IrqRecord) : readReg r (s.setIrqQueue v) = readReg r s := rfl

end readReg

section memRead

variable (m : Word) (s : State)

@[simp] theorem memRead_setRegs (v : Regs) : memRead m (s.setRegs v) = memRead m s := rfl
@[simp] theorem memRead_setFlags (v : Flags) : memRead m (s.setFlags v) = memRead m s := rfl
@[simp] theorem memRead_setPc (v : Word) : memRead m (s.setPc v) = memRead m s := rfl
@[simp] theorem memRead_setStack (p : Byte) (l : Bool) : memRead m (s.setStack p l) = memRead m s := rfl
@[simp] theorem memRead_setJmp (v : Bool) : memRead m (s.setJmp v) = memRead m s := rfl
@[simp] theorem memRead_setCpuState (v : CpuState) : memRead m (s.setCpuState v) = memRead m s := rfl
@[simp] theorem memRead_setFetched (w : Dword) (m' : BitVec Config.modeBits) : memRead m (s.setFetched w m') = memRead m s := rfl
@[simp] theorem memRead_setIntReady (v : Bool) : memRead m (s.setIntReady v) = memRead m s := rfl
@[simp] theorem memRead_setIntRequest (v : Bool) : memRead m (s.setIntRequest v) = memRead m s := rfl
@[simp] theorem memRead_setBuses (a : Word) (x : Byte) : memRead m (s.setBuses a x) = memRead m s := rfl
@[simp] theorem memRead_setPortData (v : PortTable Byte) : memRead m (s.setPortData v) = memRead m s := rfl
@[simp] theorem memRead_setPortOwner (v : PortTable DeviceId) : memRead m (s.setPortOwner v) = memRead m s := rfl
@[simp] theorem memRead_setIrqQueue (v : List IrqRecord) : memRead m (s.setIrqQueue v) = memRead m s := rfl

end memRead

section portRead

variable (q : Byte) (s : State)

@[simp] theorem portRead_setRegs (v : Regs) : portRead q (s.setRegs v) = portRead q s := rfl
@[simp] theorem portRead_setFlags (v : Flags) : portRead q (s.setFlags v) = portRead q s := rfl
@[simp] theorem portRead_setPc (v : Word) : portRead q (s.setPc v) = portRead q s := rfl
@[simp] theorem portRead_setStack (p : Byte) (l : Bool) : portRead q (s.setStack p l) = portRead q s := rfl
@[simp] theorem portRead_setJmp (v : Bool) : portRead q (s.setJmp v) = portRead q s := rfl
@[simp] theorem portRead_setCpuState (v : CpuState) : portRead q (s.setCpuState v) = portRead q s := rfl
@[simp] theorem portRead_setFetched (w : Dword) (m : BitVec Config.modeBits) : portRead q (s.setFetched w m) = portRead q s := rfl
@[simp] theorem portRead_setIntReady (v : Bool) : portRead q (s.setIntReady v) = portRead q s := rfl
@[simp] theorem portRead_setIntRequest (v : Bool) : portRead q (s.setIntRequest v) = portRead q s := rfl
@[simp] theorem portRead_setBuses (a : Word) (x : Byte) : portRead q (s.setBuses a x) = portRead q s := rfl
@[simp] theorem portRead_setMem (v : Memory) : portRead q (s.setMem v) = portRead q s := rfl
@[simp] theorem portRead_setPortOwner (v : PortTable DeviceId) : portRead q (s.setPortOwner v) = portRead q s := rfl
@[simp] theorem portRead_setIrqQueue (v : List IrqRecord) : portRead q (s.setIrqQueue v) = portRead q s := rfl

end portRead

section ownerOf

variable (q : Nat) (s : State)

@[simp] theorem ownerOf_setRegs (v : Regs) : ownerOf q (s.setRegs v) = ownerOf q s := rfl
@[simp] theorem ownerOf_setFlags (v : Flags) : ownerOf q (s.setFlags v) = ownerOf q s := rfl
@[simp] theorem ownerOf_setPc (v : Word) : ownerOf q (s.setPc v) = ownerOf q s := rfl
@[simp] theorem ownerOf_setStack (p : Byte) (l : Bool) : ownerOf q (s.setStack p l) = ownerOf q s := rfl
@[simp] theorem ownerOf_setJmp (v : Bool) : ownerOf q (s.setJmp v) = ownerOf q s := rfl
@[simp] theorem ownerOf_setCpuState (v : CpuState) : ownerOf q (s.setCpuState v) = ownerOf q s := rfl
@[simp] theorem ownerOf_setFetched (w : Dword) (m : BitVec Config.modeBits) : ownerOf q (s.setFetched w m) = ownerOf q s := rfl
@[simp] theorem ownerOf_setIntReady (v : Bool) : ownerOf q (s.setIntReady v) = ownerOf q s := rfl
@[simp] theorem ownerOf_setIntRequest (v : Bool) : ownerOf q (s.setIntRequest v) = ownerOf q s := rfl
@[simp] theorem ownerOf_setBuses (a : Word) (x : Byte) : ownerOf q (s.setBuses a x) = ownerOf q s := rfl
@[simp] theorem ownerOf_setMem (v : Memory) : ownerOf q (s.setMem v) = ownerOf q s := rfl
@[simp] theorem ownerOf_setPortData (v : PortTable Byte) : ownerOf q (s.setPortData v) = ownerOf q s := rfl
@[simp] theorem ownerOf_setIrqQueue (v : List IrqRecord) : ownerOf q (s.setIrqQueue v) = ownerOf q s := rfl

end ownerOf

/-! ### Memory and ports -/

theorem memRead_memWrite (a x : Word) (v : Byte) (s : State) :
    memRead x (memWrite a v s) = if x = a then v else memRead x s := Memory.read_write s.mem a x v

@[simp] theorem memRead_memWrite_same (a : Word) (v : Byte) (s : State) : memRead a (memWrite a v s) = v := by
  simp [memRead_memWrite]

theorem memRead_memWrite_other {a x : Word} (h : x ≠ a) (v : Byte) (s : State) :
    memRead x (memWrite a v s) = memRead x s := by simp [memRead_memWrite, h]

theorem portRead_portWrite (p q v : Byte) (s : State) :
    portRead q (portWrite p v s) = if q = p then v else portRead q s := by
  simp [portRead, portWrite, lookup_store, BitVec.toNat_inj]

section memWrite

variable (a : Word) (v : Byte) (s : State)

@[simp] theorem memWrite_regs : (memWrite a v s).regs = s.regs := rfl
@[simp] theorem memWrite_flags : (memWrite a v s).flags = s.flags := rfl
@[simp] theorem memWrite_pc : (memWrite a v s).pc = s.pc := rfl
@[simp] theorem memWrite_sp : (memWrite a v s).sp = s.sp := rfl
@[simp] theorem memWrite_full : (memWrite a v s).full = s.full := rfl
@[simp] theorem memWrite_jmp : (memWrite a v s).jmp = s.jmp := rfl
@[simp] theorem memWrite_cpuState : (memWrite a v s).cpuState = s.cpuState := rfl
@[simp] theorem memWrite_ir : (memWrite a v s).ir = s.ir := rfl
@[simp] theorem memWrite_modeView : (memWrite a v s).modeView = s.modeView := rfl
@[simp] theorem memWrite_intReady : (memWrite a v s).intReady = s.intReady := rfl
@[simp] theorem memWrite_intRequest : (memWrite a v s).intRequest = s.intRequest := rfl
@[simp] theorem memWrite_addrBus : (memWrite a v s).addrBus = s.addrBus := rfl
@[simp] theorem memWrite_dataBus : (memWrite a v s).dataBus = s.dataBus := rfl
@[simp] theorem memWrite_portData : (memWrite a v s).portData = s.portData := rfl
@[simp] theorem memWrite_portOwner : (memWrite a v s).portOwner = s.portOwner := rfl
@[simp] theorem memWrite_irqQueue : (memWrite a v s).irqQueue = s.irqQueue := rfl
@[simp] theorem readReg_memWrite (r : Reg) : readReg r (memWrite a v s) = readReg r s := rfl
@[simp] theorem portRead_memWrite (p : Byte) : portRead p (memWrite a v s) = portRead p s := rfl
@[simp] theorem ownerOf_memWrite (p : Nat) : ownerOf p (memWrite a v s) = ownerOf p s := rfl

theorem memWrite_wf (h : s.mem.wf = true) : (memWrite a v s).mem.wf = true := Memory.wf_write h a v

end memWrite

section portWrite

variable (p v : Byte) (s : State)

@[simp] theorem portWrite_regs : (portWrite p v s).regs = s.regs := rfl
@[simp] theorem portWrite_flags : (portWrite p v s).flags = s.flags := rfl
@[simp] theorem portWrite_pc : (portWrite p v s).pc = s.pc := rfl
@[simp] theorem portWrite_sp : (portWrite p v s).sp = s.sp := rfl
@[simp] theorem portWrite_full : (portWrite p v s).full = s.full := rfl
@[simp] theorem portWrite_jmp : (portWrite p v s).jmp = s.jmp := rfl
@[simp] theorem portWrite_cpuState : (portWrite p v s).cpuState = s.cpuState := rfl
@[simp] theorem portWrite_ir : (portWrite p v s).ir = s.ir := rfl
@[simp] theorem portWrite_modeView : (portWrite p v s).modeView = s.modeView := rfl
@[simp] theorem portWrite_intReady : (portWrite p v s).intReady = s.intReady := rfl
@[simp] theorem portWrite_intRequest : (portWrite p v s).intRequest = s.intRequest := rfl
@[simp] theorem portWrite_addrBus : (portWrite p v s).addrBus = s.addrBus := rfl
@[simp] theorem portWrite_dataBus : (portWrite p v s).dataBus = s.dataBus := rfl
@[simp] theorem portWrite_mem : (portWrite p v s).mem = s.mem := rfl
@[simp] theorem portWrite_portOwner : (portWrite p v s).portOwner = s.portOwner := rfl
@[simp] theorem portWrite_irqQueue : (portWrite p v s).irqQueue = s.irqQueue := rfl
@[simp] theorem readReg_portWrite (r : Reg) : readReg r (portWrite p v s) = readReg r s := rfl
@[simp] theorem memRead_portWrite (a : Word) : memRead a (portWrite p v s) = memRead a s := rfl
@[simp] theorem ownerOf_portWrite (q : Nat) : ownerOf q (portWrite p v s) = ownerOf q s := rfl

theorem portWrite_wf (h : s.portData.wfData = true) : (portWrite p v s).portData.wfData = true :=
  canonical_store p.isLt v h

end portWrite

/-! ### The program counter -/

section jumpTo

variable (t : Word) (s : State)

@[simp] theorem jumpTo_pc : (jumpTo t s).pc = t := rfl
@[simp] theorem jumpTo_jmp : (jumpTo t s).jmp = true := rfl
@[simp] theorem jumpTo_regs : (jumpTo t s).regs = s.regs := rfl
@[simp] theorem jumpTo_flags : (jumpTo t s).flags = s.flags := rfl
@[simp] theorem jumpTo_sp : (jumpTo t s).sp = s.sp := rfl
@[simp] theorem jumpTo_full : (jumpTo t s).full = s.full := rfl
@[simp] theorem jumpTo_cpuState : (jumpTo t s).cpuState = s.cpuState := rfl
@[simp] theorem jumpTo_ir : (jumpTo t s).ir = s.ir := rfl
@[simp] theorem jumpTo_modeView : (jumpTo t s).modeView = s.modeView := rfl
@[simp] theorem jumpTo_intReady : (jumpTo t s).intReady = s.intReady := rfl
@[simp] theorem jumpTo_intRequest : (jumpTo t s).intRequest = s.intRequest := rfl
@[simp] theorem jumpTo_addrBus : (jumpTo t s).addrBus = s.addrBus := rfl
@[simp] theorem jumpTo_dataBus : (jumpTo t s).dataBus = s.dataBus := rfl
@[simp] theorem jumpTo_mem : (jumpTo t s).mem = s.mem := rfl
@[simp] theorem jumpTo_portData : (jumpTo t s).portData = s.portData := rfl
@[simp] theorem jumpTo_portOwner : (jumpTo t s).portOwner = s.portOwner := rfl
@[simp] theorem jumpTo_irqQueue : (jumpTo t s).irqQueue = s.irqQueue := rfl
@[simp] theorem readReg_jumpTo (r : Reg) : readReg r (jumpTo t s) = readReg r s := rfl
@[simp] theorem memRead_jumpTo (a : Word) : memRead a (jumpTo t s) = memRead a s := rfl
@[simp] theorem portRead_jumpTo (p : Byte) : portRead p (jumpTo t s) = portRead p s := rfl
@[simp] theorem ownerOf_jumpTo (p : Nat) : ownerOf p (jumpTo t s) = ownerOf p s := rfl

end jumpTo

/-! ### The stack -/

/-- Everything a push can do (40_execution_cycle.md R116): fail on the full stack, or write one byte and move the pointer. -/
theorem push_cases (v : Byte) (s : State) (P : Params) :
    (s.full = true ∧ push v s P = setCarry s) ∨
      (s.full = false ∧ push v s P = (memWrite (stackAddr s.sp P) v s).setStack (s.sp + 1) (decide (s.sp + 1 = 0))) := by
  unfold push
  cases h : s.full
  · right
    by_cases h0 : s.sp + 1 = 0 <;> simp
  · left; simp

/-- Everything a pop can do (40_execution_cycle.md R117): fail on the empty stack, or read one byte and move the pointer. -/
theorem pop_cases (s : State) (P : Params) :
    (s.sp = 0 ∧ s.full = false ∧ pop s P = (none, setCarry s)) ∨
      (¬ (s.sp = 0 ∧ s.full = false) ∧
        pop s P = (some (memRead (stackAddr (s.sp - 1) P) s), s.setStack (s.sp - 1) false)) := by
  unfold pop stackEmpty
  by_cases h : s.sp = 0 <;> cases h2 : s.full <;> simp [h, Classical.em]

section push

variable (v : Byte) (s : State) (P : Params)

@[simp] theorem push_regs : (push v s P).regs = s.regs := by unfold push; split <;> rfl
@[simp] theorem push_pc : (push v s P).pc = s.pc := by unfold push; split <;> rfl
@[simp] theorem push_jmp : (push v s P).jmp = s.jmp := by unfold push; split <;> rfl
@[simp] theorem push_cpuState : (push v s P).cpuState = s.cpuState := by unfold push; split <;> rfl
@[simp] theorem push_ir : (push v s P).ir = s.ir := by unfold push; split <;> rfl
@[simp] theorem push_modeView : (push v s P).modeView = s.modeView := by unfold push; split <;> rfl
@[simp] theorem push_intReady : (push v s P).intReady = s.intReady := by unfold push; split <;> rfl
@[simp] theorem push_intRequest : (push v s P).intRequest = s.intRequest := by unfold push; split <;> rfl
@[simp] theorem push_addrBus : (push v s P).addrBus = s.addrBus := by unfold push; split <;> rfl
@[simp] theorem push_dataBus : (push v s P).dataBus = s.dataBus := by unfold push; split <;> rfl
@[simp] theorem push_portData : (push v s P).portData = s.portData := by unfold push; split <;> rfl
@[simp] theorem push_portOwner : (push v s P).portOwner = s.portOwner := by unfold push; split <;> rfl
@[simp] theorem push_irqQueue : (push v s P).irqQueue = s.irqQueue := by unfold push; split <;> rfl
@[simp] theorem readReg_push (r : Reg) : readReg r (push v s P) = readReg r s := by unfold push; split <;> rfl
@[simp] theorem portRead_push (p : Byte) : portRead p (push v s P) = portRead p s := by unfold push; split <;> rfl
@[simp] theorem ownerOf_push (p : Nat) : ownerOf p (push v s P) = ownerOf p s := by unfold push; split <;> rfl

theorem push_flags : (push v s P).flags = { s.flags with carry := s.flags.carry || s.full } := by
  rcases push_cases v s P with ⟨h, e⟩ | ⟨h, e⟩ <;> simp [e, h, setCarry]

theorem push_mem_wf (h : s.mem.wf = true) : (push v s P).mem.wf = true := by
  rcases push_cases v s P with ⟨-, e⟩ | ⟨-, e⟩
  · simpa [e, setCarry] using h
  · simpa [e] using memWrite_wf _ _ _ h

theorem push_fullWrapped (h : s.full = true → s.sp = 0) : (push v s P).full = true → (push v s P).sp = 0 := by
  rcases push_cases v s P with ⟨-, e⟩ | ⟨-, e⟩
  · simpa [e, setCarry] using h
  · simp [e]

end push

section pop

variable (s : State) (P : Params)

@[simp] theorem pop_regs : (pop s P).2.regs = s.regs := by unfold pop; split <;> rfl
@[simp] theorem pop_pc : (pop s P).2.pc = s.pc := by unfold pop; split <;> rfl
@[simp] theorem pop_jmp : (pop s P).2.jmp = s.jmp := by unfold pop; split <;> rfl
@[simp] theorem pop_cpuState : (pop s P).2.cpuState = s.cpuState := by unfold pop; split <;> rfl
@[simp] theorem pop_ir : (pop s P).2.ir = s.ir := by unfold pop; split <;> rfl
@[simp] theorem pop_modeView : (pop s P).2.modeView = s.modeView := by unfold pop; split <;> rfl
@[simp] theorem pop_intReady : (pop s P).2.intReady = s.intReady := by unfold pop; split <;> rfl
@[simp] theorem pop_intRequest : (pop s P).2.intRequest = s.intRequest := by unfold pop; split <;> rfl
@[simp] theorem pop_addrBus : (pop s P).2.addrBus = s.addrBus := by unfold pop; split <;> rfl
@[simp] theorem pop_dataBus : (pop s P).2.dataBus = s.dataBus := by unfold pop; split <;> rfl
@[simp] theorem pop_mem : (pop s P).2.mem = s.mem := by unfold pop; split <;> rfl
@[simp] theorem pop_portData : (pop s P).2.portData = s.portData := by unfold pop; split <;> rfl
@[simp] theorem pop_portOwner : (pop s P).2.portOwner = s.portOwner := by unfold pop; split <;> rfl
@[simp] theorem pop_irqQueue : (pop s P).2.irqQueue = s.irqQueue := by unfold pop; split <;> rfl
@[simp] theorem readReg_pop (r : Reg) : readReg r (pop s P).2 = readReg r s := by unfold pop; split <;> rfl
@[simp] theorem memRead_pop (a : Word) : memRead a (pop s P).2 = memRead a s := by unfold pop; split <;> rfl
@[simp] theorem portRead_pop (p : Byte) : portRead p (pop s P).2 = portRead p s := by unfold pop; split <;> rfl
@[simp] theorem ownerOf_pop (p : Nat) : ownerOf p (pop s P).2 = ownerOf p s := by unfold pop; split <;> rfl

theorem pop_flags : (pop s P).2.flags = { s.flags with carry := s.flags.carry || stackEmpty s } := by
  rcases pop_cases s P with ⟨h, h2, e⟩ | ⟨h, e⟩
  · simp [e, h, h2, setCarry, stackEmpty]
  · have hn : stackEmpty s = false := by
      cases h2 : s.full
      · simp only [h2, and_true] at h; simp [stackEmpty]; exact fun h0 => absurd h0 h
      · simp [stackEmpty, h2]
    simp [e, hn]

theorem pop_fullWrapped (h : s.full = true → s.sp = 0) : (pop s P).2.full = true → (pop s P).2.sp = 0 := by
  rcases pop_cases s P with ⟨-, -, e⟩ | ⟨-, e⟩
  · simpa [e, setCarry] using h
  · simp [e]

end pop

/-! ### Handlers -/

section handler

variable (ret : Word) (p : Byte) (s : State) (P : Params)

@[simp] theorem enterHandler_regs : (enterHandler ret p s P).regs = s.regs := by simp [enterHandler, pushWord]
@[simp] theorem enterHandler_cpuState : (enterHandler ret p s P).cpuState = s.cpuState := by simp [enterHandler, pushWord]
@[simp] theorem enterHandler_ir : (enterHandler ret p s P).ir = s.ir := by simp [enterHandler, pushWord]
@[simp] theorem enterHandler_modeView : (enterHandler ret p s P).modeView = s.modeView := by simp [enterHandler, pushWord]
@[simp] theorem enterHandler_intReady : (enterHandler ret p s P).intReady = s.intReady := by simp [enterHandler, pushWord]
@[simp] theorem enterHandler_intRequest : (enterHandler ret p s P).intRequest = s.intRequest := by simp [enterHandler, pushWord]
@[simp] theorem enterHandler_addrBus : (enterHandler ret p s P).addrBus = s.addrBus := by simp [enterHandler, pushWord]
@[simp] theorem enterHandler_dataBus : (enterHandler ret p s P).dataBus = s.dataBus := by simp [enterHandler, pushWord]
@[simp] theorem enterHandler_portData : (enterHandler ret p s P).portData = s.portData := by simp [enterHandler, pushWord]
@[simp] theorem enterHandler_portOwner : (enterHandler ret p s P).portOwner = s.portOwner := by simp [enterHandler, pushWord]
@[simp] theorem enterHandler_irqQueue : (enterHandler ret p s P).irqQueue = s.irqQueue := by simp [enterHandler, pushWord]
@[simp] theorem enterHandler_jmp : (enterHandler ret p s P).jmp = true := rfl
@[simp] theorem readReg_enterHandler (r : Reg) : readReg r (enterHandler ret p s P) = readReg r s := by
  simp [enterHandler, pushWord]

/-- What entering a handler does (46_system.md R222, 60_exceptions.md R277), the pushes said by `push`: the flags I and H drop,
carry tells a failed push, and the PC is the vector that memory holds after the pushes. -/
theorem enterHandler_spec :
    (enterHandler ret p s P).mem = (pushWord ret (push (readReg .i s) s P) P).mem ∧
      (enterHandler ret p s P).sp = (pushWord ret (push (readReg .i s) s P) P).sp ∧
      (enterHandler ret p s P).full = (pushWord ret (push (readReg .i s) s P) P).full ∧
      (enterHandler ret p s P).flags =
        { (pushWord ret (push (readReg .i s) s P) P).flags with interrupt := false, halt := false } ∧
      (enterHandler ret p s P).pc = vectorOf p (pushWord ret (push (readReg .i s) s P) P) P :=
  by simp [enterHandler, vectorOf]

theorem enterHandler_mem_wf (h : s.mem.wf = true) : (enterHandler ret p s P).mem.wf = true :=
  push_mem_wf _ _ _ (push_mem_wf _ _ _ (push_mem_wf _ _ _ h))

theorem enterHandler_fullWrapped (h : s.full = true → s.sp = 0) :
    (enterHandler ret p s P).full = true → (enterHandler ret p s P).sp = 0 :=
  push_fullWrapped _ _ _ (push_fullWrapped _ _ _ (push_fullWrapped _ _ _ h))

/-- What returning from a handler does (46_system.md R224), the pops said by `pop`. -/
theorem returnFromHandler_spec :
    returnFromHandler s P =
      jumpTo (popWord s P).1
        ((writeRegOpt .i (pop (popWord s P).2 P).1 (pop (popWord s P).2 P).2).setFlags
          { (writeRegOpt .i (pop (popWord s P).2 P).1 (pop (popWord s P).2 P).2).flags with interrupt := true }) := by
  rw [returnFromHandler]

end handler

/-- A register written only where there is a byte. -/
theorem writeRegOpt_cases (r : Reg) (v : Option Byte) (s : State) :
    (v = none ∧ writeRegOpt r v s = s) ∨ ∃ x, v = some x ∧ writeRegOpt r v s = writeReg r x s := by
  cases v with
  | none => exact .inl ⟨rfl, rfl⟩
  | some x => exact .inr ⟨x, rfl, rfl⟩

/-! ### Outcomes -/

@[simp] theorem onNext_next (s : State) (f : State → State) : onNext (.next s) f = .next (f s) := rfl

/-- An outcome mapped by `onNext` is a next state exactly where the outcome is. -/
theorem onNext_eq_next {o : Result} {f : State → State} {t : State} :
    onNext o f = .next t ↔ ∃ s, o = .next s ∧ f s = t := by
  cases o <;> simp [onNext]

end Sys2Proof.Machine
end

