-- ==== Sys2Proof/Laws/Cycle.lean ====
section
/-! SUPPORT. What the two halves of a tick can do, each said once. -/

namespace Sys2Proof.Machine

/-! ### The IOD -/

/-- Everything the IOD's half can do (60_exceptions.md R270, R272). -/
theorem iodTick_cases (s : State) :
    (s.intReady = false ∧ iodTick s = s.setIntRequest (!s.irqQueue.isEmpty)) ∨
      (s.intReady = true ∧ s.irqQueue = [] ∧ iodTick s = s.setIntRequest false) ∨
      ∃ r rest, s.intReady = true ∧ s.irqQueue = r :: rest ∧
        iodTick s = ((s.setIntRequest false).setIrqQueue rest).setBuses (r.port.setWidth 16) r.data := by
  unfold iodTick deliver
  cases h : s.intReady
  · simp
  · cases hq : s.irqQueue with
    | nil => simp [hq]
    | cons r rest => simp [hq]

section iodTick

variable (s : State)

@[simp] theorem iodTick_regs : (iodTick s).regs = s.regs := by
  rcases iodTick_cases s with ⟨-, e⟩ | ⟨-, -, e⟩ | ⟨_, _, -, -, e⟩ <;> simp [e]
@[simp] theorem iodTick_flags : (iodTick s).flags = s.flags := by
  rcases iodTick_cases s with ⟨-, e⟩ | ⟨-, -, e⟩ | ⟨_, _, -, -, e⟩ <;> simp [e]
@[simp] theorem iodTick_pc : (iodTick s).pc = s.pc := by
  rcases iodTick_cases s with ⟨-, e⟩ | ⟨-, -, e⟩ | ⟨_, _, -, -, e⟩ <;> simp [e]
@[simp] theorem iodTick_sp : (iodTick s).sp = s.sp := by
  rcases iodTick_cases s with ⟨-, e⟩ | ⟨-, -, e⟩ | ⟨_, _, -, -, e⟩ <;> simp [e]
@[simp] theorem iodTick_full : (iodTick s).full = s.full := by
  rcases iodTick_cases s with ⟨-, e⟩ | ⟨-, -, e⟩ | ⟨_, _, -, -, e⟩ <;> simp [e]
@[simp] theorem iodTick_jmp : (iodTick s).jmp = s.jmp := by
  rcases iodTick_cases s with ⟨-, e⟩ | ⟨-, -, e⟩ | ⟨_, _, -, -, e⟩ <;> simp [e]
@[simp] theorem iodTick_cpuState : (iodTick s).cpuState = s.cpuState := by
  rcases iodTick_cases s with ⟨-, e⟩ | ⟨-, -, e⟩ | ⟨_, _, -, -, e⟩ <;> simp [e]
@[simp] theorem iodTick_ir : (iodTick s).ir = s.ir := by
  rcases iodTick_cases s with ⟨-, e⟩ | ⟨-, -, e⟩ | ⟨_, _, -, -, e⟩ <;> simp [e]
@[simp] theorem iodTick_modeView : (iodTick s).modeView = s.modeView := by
  rcases iodTick_cases s with ⟨-, e⟩ | ⟨-, -, e⟩ | ⟨_, _, -, -, e⟩ <;> simp [e]
@[simp] theorem iodTick_intReady : (iodTick s).intReady = s.intReady := by
  rcases iodTick_cases s with ⟨-, e⟩ | ⟨-, -, e⟩ | ⟨_, _, -, -, e⟩ <;> simp [e]
@[simp] theorem iodTick_mem : (iodTick s).mem = s.mem := by
  rcases iodTick_cases s with ⟨-, e⟩ | ⟨-, -, e⟩ | ⟨_, _, -, -, e⟩ <;> simp [e]
@[simp] theorem iodTick_portData : (iodTick s).portData = s.portData := by
  rcases iodTick_cases s with ⟨-, e⟩ | ⟨-, -, e⟩ | ⟨_, _, -, -, e⟩ <;> simp [e]
@[simp] theorem iodTick_portOwner : (iodTick s).portOwner = s.portOwner := by
  rcases iodTick_cases s with ⟨-, e⟩ | ⟨-, -, e⟩ | ⟨_, _, -, -, e⟩ <;> simp [e]

end iodTick

/-! ### The CPU -/

/-- The bytes a fetch reads (40_execution_cycle.md R103). -/
theorem fetchBytes_eq (a : Word) (s : State) :
    fetchBytes a s = [memRead a s, memRead (a + 1) s, memRead (a + 2) s, memRead (a + 3) s] := by
  simp [fetchBytes, List.range, List.range.loop]

/-- A fetch is its four bytes, the byte at the lowest address first (40_execution_cycle.md R103, 20_memory.md R54). -/
theorem fetch32_eq (a : Word) (s : State) :
    fetch32 a s = memRead a s ++ memRead (a + 1) s ++ memRead (a + 2) s ++ memRead (a + 3) s := by
  rw [fetch32, fetchBytes_eq, wordOfBytes_four]

/-- The interrupt prologue where `PROLOGUE_LOADS_I` is false (60_exceptions.md R277). -/
theorem interruptService_eq (s : State) :
    interruptService s =
      ((enterHandler s.pc (s.addrBus.extractLsb' 0 8) s).setIntReady false).setCpuState .instructionExec := rfl

/-- Everything the CPU's half can do (40_execution_cycle.md R101): enter interrupt management, stay halted, run one word, wait,
or serve the interrupt. -/
theorem cpuTick_cases (s : State) (P : Params) (run : Instr → State → Result) :
    (s.cpuState = .instructionExec ∧ s.flags.interrupt = true ∧ s.intRequest = true ∧
        cpuTick s P run = .next (clearJmp (enterManagement s))) ∨
      (s.cpuState = .instructionExec ∧ ¬ (s.flags.interrupt = true ∧ s.intRequest = true) ∧ s.flags.halt = true ∧
        cpuTick s P run = .next (clearJmp s)) ∨
      (s.cpuState = .instructionExec ∧ ¬ (s.flags.interrupt = true ∧ s.intRequest = true) ∧ s.flags.halt = false ∧
        cpuTick s P run = onNext (runInstr s P run) clearJmp) ∨
      (s.cpuState = .interruptManagement ∧ s.intRequest = true ∧ cpuTick s P run = .next (clearJmp s)) ∨
      (s.cpuState = .interruptManagement ∧ s.intRequest = false ∧
        cpuTick s P run = .next (clearJmp (interruptService s P))) := by
  unfold cpuTick
  cases s.cpuState <;> cases s.flags.interrupt <;> cases s.intRequest <;> cases s.flags.halt <;> simp

/-- A word runs as its decoded form, or as nothing (40_execution_cycle.md R105, 30_encoding.md R84); then the PC advances. -/
theorem runInstr_cases (s : State) (P : Params) (run : Instr → State → Result) :
    (∃ i, decode (fetch32 s.pc s) P = .form i ∧ runInstr s P run = onNext (run i (fetchInstr s P)) advancePc) ∨
      ∃ why, decode (fetch32 s.pc s) P = .unmatched why ∧ runInstr s P run = .next (advancePc (fetchInstr s P)) := by
  have hir : (fetchInstr s P).ir = fetch32 s.pc s := rfl
  cases h : decode (fetch32 s.pc s) P with
  | form i => exact .inl ⟨i, rfl, by simp [runInstr, executeDecoded, hir, h]⟩
  | unmatched why => exact .inr ⟨why, rfl, by simp [runInstr, executeDecoded, hir, h]⟩

/-- A step is the CPU's half and then the IOD's (40_execution_cycle.md R100). -/
theorem step_eq_next {s t : State} : step s = .next t ↔ ∃ u, cpuTick s = .next u ∧ iodTick u = t :=
  onNext_eq_next

end Sys2Proof.Machine
end

