-- ==== Sys2Proof/Laws/Environment.lean ====
section
/-! SUPPORT. What the IOD's operations and the environment's operations can do, each said once. -/

namespace Sys2Proof.Machine

/-! ### The interrupt queue -/

/-- Everything a trigger can do (60_exceptions.md R268). -/
theorem triggerInterrupt_cases (p : Byte) (s : State) (P : Params) :
    (s.irqQueue.length < P.irqQueueCapacity ∧
        triggerInterrupt p s P = s.setIrqQueue (s.irqQueue ++ [{ port := p, data := portRead p s }])) ∨
      (P.irqQueueCapacity ≤ s.irqQueue.length ∧ triggerInterrupt p s P = s) := by
  unfold triggerInterrupt
  split
  · exact .inl ⟨‹_›, rfl⟩
  · exact .inr ⟨by omega, rfl⟩

/-! ### Port blocks -/

/-- A claimed block belongs to the device, every other port is as before (60_exceptions.md R264). -/
theorem lookup_claimBlock (dev : DeviceId) (first count : Nat) (t : PortTable DeviceId) (p : Nat) :
    lookup 0 (claimBlock dev first count t) p = if first ≤ p ∧ p < first + count then dev else lookup 0 t p := by
  induction count with
  | zero => rw [claimBlock, if_neg (by omega)]
  | succ k ih =>
    rw [claimBlock, lookup_store, ih]
    by_cases h : p = first + k
    · rw [if_pos h, if_pos (by omega)]
    · rw [if_neg h]
      by_cases h2 : first ≤ p ∧ p < first + k
      · rw [if_pos h2, if_pos (by omega)]
      · rw [if_neg h2, if_neg (by omega)]

/-- A claim inside the table keeps its canonical form. -/
theorem wfOwner_claimBlock (dev : DeviceId) {first count : Nat} (h : first + count ≤ Config.portCount) {t : PortTable DeviceId}
    (ht : t.wfOwner = true) : (claimBlock dev first count t).wfOwner = true := by
  induction count with
  | zero => exact ht
  | succ k ih => exact canonical_store (by omega) dev (ih (by omega))

/-- `blockFree` tells that every port of the block is unassigned. -/
theorem blockFree_iff {first count : Nat} {s : State} :
    blockFree first count s = true ↔ ∀ k, k < count → ownerOf (first + k) s = 0 := by
  simp [blockFree, List.all_eq_true]

/-- A block that is found lies in the table and is free. -/
theorem firstFreeBlock_some {count b : Nat} {s : State} (h : firstFreeBlock count s = some b) :
    b + count ≤ Config.portCount ∧ blockFree b count s = true := by
  have := List.find?_some h
  simpa using this

/-- Everything a port request can do (60_exceptions.md R264, R266): fail, or claim the first free block. -/
theorem requestPorts_cases (dev : DeviceId) (count : Nat) (s : State) :
    requestPorts dev count s = ([], s) ∨
      ∃ b, dev ≠ 0 ∧ count ≠ 0 ∧ firstFreeBlock count s = some b ∧
        requestPorts dev count s =
          ((List.range count).map fun k => BitVec.ofNat 8 (b + k), s.setPortOwner (claimBlock dev b count s.portOwner)) := by
  unfold requestPorts
  split
  · exact .inl rfl
  · rename_i h
    cases hb : firstFreeBlock count s with
    | none => exact .inl rfl
    | some b => exact .inr ⟨b, fun e => h (.inl e), fun e => h (.inr (.inl e)), rfl, rfl⟩

/-! ### Loading -/

/-- Everything `load` can do (20_memory.md R53). -/
theorem load_cases (image : List Byte) (s : State) :
    (image.length = Config.memSize ∧ load image s = some (s.setMem (Memory.ofImage image))) ∨
      (image.length ≠ Config.memSize ∧ load image s = none) := by
  unfold load
  split
  · exact .inl ⟨‹_›, rfl⟩
  · exact .inr ⟨‹_›, rfl⟩

/-- Everything `init` can do (70_reset_and_hazards.md R300 to R303). -/
theorem initBoard_cases (image : List Byte) (s : State) (P : Params) :
    (image.length = Config.memSize ∧ initBoard image s P = some (iodReset (cpuReset (s.setMem (Memory.ofImage image)) P))) ∨
      (image.length ≠ Config.memSize ∧ initBoard image s P = none) := by
  rcases load_cases image s with ⟨h, e⟩ | ⟨h, e⟩
  · exact .inl ⟨h, by simp [initBoard, e]⟩
  · exact .inr ⟨h, by simp [initBoard, e]⟩

/-- Both resets together leave the reset state but for memory and the port owners (70_reset_and_hazards.md R302, R303). -/
theorem resets_eq (s : State) :
    iodReset (cpuReset s) = (State.reset.setMem s.mem).setPortOwner s.portOwner := rfl

end Sys2Proof.Machine
end

