-- ==== Sys2Proof/Machine/Parametric.lean ====
section
/-! DEFINITION. The machine under other values of the parameters (spec 00_scope.md R9): the same operations with the configuration
argument given. `exec`, `step` and `Session.act` are this machine at `Config.params` (Sys2Proof/Laws/Parametric.lean). -/

namespace Sys2Proof.Machine

/-- Running an instruction under `P`: the eight forms that use the stack or the interrupt vector table depend on it, the others do
not. -/
def execWith (P : Params) (i : Instr) (s : State) : Result :=
  match i with
  | .calImm16 vx => .next (callOp (.imm16 vx) s P)
  | .calReg16 r1 r2 => .next (callOp (.reg16 r1 r2) s P)
  | .ret => .next (retOp s P)
  | .popReg r1 => .next (popOp r1 s P)
  | .pshReg r1 => .next (push (readReg r1 s) s P)
  | .pshImm8 v1 => .next (push v1 s P)
  | .intImm8 v1 => .next (enterHandler (nextPc s) v1 s P)
  | .irt => .next (returnFromHandler s P)
  | .nop | .adcReg _ _ | .adcRegImm8 _ _ | .adcRegRam _ _ | .adcRamreg _ _ _ | .addReg _ _ | .addRegImm8 _ _
  | .addRegRam _ _ | .addRamreg _ _ _ | .andReg _ _ | .andRegImm8 _ _ | .andRegRam _ _ | .andRamreg _ _ _ | .clc
  | .cle | .cli | .cln | .cls | .clz | .clf | .cmpReg _ _ | .cmpRegImm8 _ _ | .cmpRegRam _ _ | .cmpRamreg _ _ _
  | .decReg _ | .hlt | .inReg _ _ | .inRegImm8 _ _ | .outReg _ _ | .outRegImm8 _ _ | .incReg _ | .jmcImm16 _
  | .jmcReg16 _ _ | .jmeImm16 _ | .jmeReg16 _ _ | .jmfImm16 _ | .jmfReg16 _ _ | .jmnImm16 _ | .jmnReg16 _ _
  | .jmpImm16 _ | .jmpReg16 _ _ | .jmsImm16 _ | .jmsReg16 _ _ | .jmzImm16 _ | .jmzReg16 _ _ | .lodRegRam _ _
  | .lodRamreg _ _ _ | .movReg _ _ | .movRegImm8 _ _ | .notReg _ | .orReg _ _ | .orRegImm8 _ _ | .orRegRam _ _
  | .orRamreg _ _ _ | .sbbReg _ _ | .sbbRegImm8 _ _ | .sbbRegRam _ _ | .sbbRamreg _ _ _ | .shlReg _ | .shrReg _ | .stc
  | .ste | .stf | .sti | .stn | .strRegRam _ _ | .strRamreg _ _ _ | .sts | .stz | .subReg _ _ | .subRegImm8 _ _
  | .subRegRam _ _ | .subRamreg _ _ _ | .xorReg _ _ | .xorRegImm8 _ _ | .xorRegRam _ _ | .xorRamreg _ _ _ => exec i s

/-- One step under `P` (40_execution_cycle.md R100). -/
def stepWith (P : Params) (s : State) : Result := motherboardTick s P (execWith P)

/-- The state after reset under `P` (70_reset_and_hazards.md R302). -/
def resetWith (P : Params) : State := State.reset.setPc P.programStart

/-- One operation of the environment under `P` (60_exceptions.md R283). -/
def Session.actWith (P : Params) (act : EnvAction) (x : Session) : SessionResult := x.act act P (stepWith P)

end Sys2Proof.Machine
end

