-- ==== Sys2Proof/Laws/Parametric.lean ====
section
/-! SUPPORT. The machine of Config's values is the parametric machine at the default (spec 00_scope.md R9). -/

namespace Sys2Proof.Machine

theorem execWith_params : execWith Config.params = exec := by
  funext i s
  cases i <;> rfl

theorem stepWith_params : stepWith Config.params = step := by
  funext s
  rw [stepWith, execWith_params]
  rfl

theorem resetWith_params : resetWith Config.params = State.reset := rfl

theorem actWith_params (act : EnvAction) (x : Session) : Session.actWith Config.params act x = x.act act := by
  rw [Session.actWith, stepWith_params]

end Sys2Proof.Machine
end

