-- ==== Sys2Proof/Laws/PerInstr.lean ====
section
/-! SUPPORT. Statements made per instruction: one family, decode and encode agree (spec 30_encoding.md R71 to R83). -/

namespace Sys2Proof.Laws

/-- A well-formed instruction's word decodes to it. -/
def EncodeDecode.Statement (i : Instr) : Prop := WellFormed i = true → decode (encode i) = .form i

theorem EncodeDecode.nop : EncodeDecode.Statement .nop := decode_encode_of rfl
theorem EncodeDecode.adcReg (r1 r2 : Reg) : EncodeDecode.Statement (.adcReg r1 r2) := decode_encode_of (two_back _ _ .adcReg r1 r2)
theorem EncodeDecode.adcRegImm8 (r1 : Reg) (v1 : Byte) : EncodeDecode.Statement (.adcRegImm8 r1 v1) := decode_encode_of (regByte_back _ _ .adcRegImm8 r1 v1)
theorem EncodeDecode.adcRegRam (r1 : Reg) (vx : Word) : EncodeDecode.Statement (.adcRegRam r1 vx) := decode_encode_of (regAddr_back _ _ .adcRegRam r1 vx)
theorem EncodeDecode.adcRamreg (r1 r2 r3 : Reg) : EncodeDecode.Statement (.adcRamreg r1 r2 r3) := decode_encode_of (three_back _ _ .adcRamreg r1 r2 r3)
theorem EncodeDecode.addReg (r1 r2 : Reg) : EncodeDecode.Statement (.addReg r1 r2) := decode_encode_of (two_back _ _ .addReg r1 r2)
theorem EncodeDecode.addRegImm8 (r1 : Reg) (v1 : Byte) : EncodeDecode.Statement (.addRegImm8 r1 v1) := decode_encode_of (regByte_back _ _ .addRegImm8 r1 v1)
theorem EncodeDecode.addRegRam (r1 : Reg) (vx : Word) : EncodeDecode.Statement (.addRegRam r1 vx) := decode_encode_of (regAddr_back _ _ .addRegRam r1 vx)
theorem EncodeDecode.addRamreg (r1 r2 r3 : Reg) : EncodeDecode.Statement (.addRamreg r1 r2 r3) := decode_encode_of (three_back _ _ .addRamreg r1 r2 r3)
theorem EncodeDecode.andReg (r1 r2 : Reg) : EncodeDecode.Statement (.andReg r1 r2) := decode_encode_of (two_back _ _ .andReg r1 r2)
theorem EncodeDecode.andRegImm8 (r1 : Reg) (v1 : Byte) : EncodeDecode.Statement (.andRegImm8 r1 v1) := decode_encode_of (regByte_back _ _ .andRegImm8 r1 v1)
theorem EncodeDecode.andRegRam (r1 : Reg) (vx : Word) : EncodeDecode.Statement (.andRegRam r1 vx) := decode_encode_of (regAddr_back _ _ .andRegRam r1 vx)
theorem EncodeDecode.andRamreg (r1 r2 r3 : Reg) : EncodeDecode.Statement (.andRamreg r1 r2 r3) := decode_encode_of (three_back _ _ .andRamreg r1 r2 r3)
theorem EncodeDecode.calImm16 (vx : Word) : EncodeDecode.Statement (.calImm16 vx) := decode_encode_of (addr_back _ _ .calImm16 vx)
theorem EncodeDecode.calReg16 (r1 r2 : Reg) : EncodeDecode.Statement (.calReg16 r1 r2) := decode_encode_of (two_back _ _ .calReg16 r1 r2)
theorem EncodeDecode.clc : EncodeDecode.Statement .clc := decode_encode_of rfl
theorem EncodeDecode.cle : EncodeDecode.Statement .cle := decode_encode_of rfl
theorem EncodeDecode.cli : EncodeDecode.Statement .cli := decode_encode_of rfl
theorem EncodeDecode.cln : EncodeDecode.Statement .cln := decode_encode_of rfl
theorem EncodeDecode.cls : EncodeDecode.Statement .cls := decode_encode_of rfl
theorem EncodeDecode.clz : EncodeDecode.Statement .clz := decode_encode_of rfl
theorem EncodeDecode.clf : EncodeDecode.Statement .clf := decode_encode_of rfl
theorem EncodeDecode.cmpReg (r1 r2 : Reg) : EncodeDecode.Statement (.cmpReg r1 r2) := decode_encode_of (two_back _ _ .cmpReg r1 r2)
theorem EncodeDecode.cmpRegImm8 (r1 : Reg) (v1 : Byte) : EncodeDecode.Statement (.cmpRegImm8 r1 v1) := decode_encode_of (regByte_back _ _ .cmpRegImm8 r1 v1)
theorem EncodeDecode.cmpRegRam (r1 : Reg) (vx : Word) : EncodeDecode.Statement (.cmpRegRam r1 vx) := decode_encode_of (regAddr_back _ _ .cmpRegRam r1 vx)
theorem EncodeDecode.cmpRamreg (r1 r2 r3 : Reg) : EncodeDecode.Statement (.cmpRamreg r1 r2 r3) := decode_encode_of (three_back _ _ .cmpRamreg r1 r2 r3)
theorem EncodeDecode.decReg (r1 : Reg) : EncodeDecode.Statement (.decReg r1) := decode_encode_of (one_back _ _ .decReg r1)
theorem EncodeDecode.hlt : EncodeDecode.Statement .hlt := decode_encode_of rfl
theorem EncodeDecode.inReg (r1 r2 : Reg) : EncodeDecode.Statement (.inReg r1 r2) := decode_encode_of (two_back _ _ .inReg r1 r2)
theorem EncodeDecode.inRegImm8 (r1 : Reg) (v1 : Byte) : EncodeDecode.Statement (.inRegImm8 r1 v1) := decode_encode_of (regByte_back _ _ .inRegImm8 r1 v1)
theorem EncodeDecode.outReg (r1 r2 : Reg) : EncodeDecode.Statement (.outReg r1 r2) := decode_encode_of (two_back _ _ .outReg r1 r2)
theorem EncodeDecode.outRegImm8 (r1 : Reg) (v1 : Byte) : EncodeDecode.Statement (.outRegImm8 r1 v1) := decode_encode_of (regByte_back _ _ .outRegImm8 r1 v1)
theorem EncodeDecode.incReg (r1 : Reg) : EncodeDecode.Statement (.incReg r1) := decode_encode_of (one_back _ _ .incReg r1)
theorem EncodeDecode.intImm8 (v1 : Byte) : EncodeDecode.Statement (.intImm8 v1) := decode_encode_of (byte_back _ _ .intImm8 v1)
theorem EncodeDecode.irt : EncodeDecode.Statement .irt := decode_encode_of rfl
theorem EncodeDecode.jmcImm16 (vx : Word) : EncodeDecode.Statement (.jmcImm16 vx) := decode_encode_of (addr_back _ _ .jmcImm16 vx)
theorem EncodeDecode.jmcReg16 (r1 r2 : Reg) : EncodeDecode.Statement (.jmcReg16 r1 r2) := decode_encode_of (two_back _ _ .jmcReg16 r1 r2)
theorem EncodeDecode.jmeImm16 (vx : Word) : EncodeDecode.Statement (.jmeImm16 vx) := decode_encode_of (addr_back _ _ .jmeImm16 vx)
theorem EncodeDecode.jmeReg16 (r1 r2 : Reg) : EncodeDecode.Statement (.jmeReg16 r1 r2) := decode_encode_of (two_back _ _ .jmeReg16 r1 r2)
theorem EncodeDecode.jmfImm16 (vx : Word) : EncodeDecode.Statement (.jmfImm16 vx) := decode_encode_of (addr_back _ _ .jmfImm16 vx)
theorem EncodeDecode.jmfReg16 (r1 r2 : Reg) : EncodeDecode.Statement (.jmfReg16 r1 r2) := decode_encode_of (two_back _ _ .jmfReg16 r1 r2)
theorem EncodeDecode.jmnImm16 (vx : Word) : EncodeDecode.Statement (.jmnImm16 vx) := decode_encode_of (addr_back _ _ .jmnImm16 vx)
theorem EncodeDecode.jmnReg16 (r1 r2 : Reg) : EncodeDecode.Statement (.jmnReg16 r1 r2) := decode_encode_of (two_back _ _ .jmnReg16 r1 r2)
theorem EncodeDecode.jmpImm16 (vx : Word) : EncodeDecode.Statement (.jmpImm16 vx) := decode_encode_of (addr_back _ _ .jmpImm16 vx)
theorem EncodeDecode.jmpReg16 (r1 r2 : Reg) : EncodeDecode.Statement (.jmpReg16 r1 r2) := decode_encode_of (two_back _ _ .jmpReg16 r1 r2)
theorem EncodeDecode.jmsImm16 (vx : Word) : EncodeDecode.Statement (.jmsImm16 vx) := decode_encode_of (addr_back _ _ .jmsImm16 vx)
theorem EncodeDecode.jmsReg16 (r1 r2 : Reg) : EncodeDecode.Statement (.jmsReg16 r1 r2) := decode_encode_of (two_back _ _ .jmsReg16 r1 r2)
theorem EncodeDecode.jmzImm16 (vx : Word) : EncodeDecode.Statement (.jmzImm16 vx) := decode_encode_of (addr_back _ _ .jmzImm16 vx)
theorem EncodeDecode.jmzReg16 (r1 r2 : Reg) : EncodeDecode.Statement (.jmzReg16 r1 r2) := decode_encode_of (two_back _ _ .jmzReg16 r1 r2)
theorem EncodeDecode.lodRegRam (r1 : Reg) (vx : Word) : EncodeDecode.Statement (.lodRegRam r1 vx) := decode_encode_of (regAddr_back _ _ .lodRegRam r1 vx)
theorem EncodeDecode.lodRamreg (r1 r2 r3 : Reg) : EncodeDecode.Statement (.lodRamreg r1 r2 r3) := decode_encode_of (three_back _ _ .lodRamreg r1 r2 r3)
theorem EncodeDecode.movReg (r1 r2 : Reg) : EncodeDecode.Statement (.movReg r1 r2) := decode_encode_of (two_back _ _ .movReg r1 r2)
theorem EncodeDecode.movRegImm8 (r1 : Reg) (v1 : Byte) : EncodeDecode.Statement (.movRegImm8 r1 v1) := decode_encode_of (regByte_back _ _ .movRegImm8 r1 v1)
theorem EncodeDecode.notReg (r1 : Reg) : EncodeDecode.Statement (.notReg r1) := decode_encode_of (one_back _ _ .notReg r1)
theorem EncodeDecode.orReg (r1 r2 : Reg) : EncodeDecode.Statement (.orReg r1 r2) := decode_encode_of (two_back _ _ .orReg r1 r2)
theorem EncodeDecode.orRegImm8 (r1 : Reg) (v1 : Byte) : EncodeDecode.Statement (.orRegImm8 r1 v1) := decode_encode_of (regByte_back _ _ .orRegImm8 r1 v1)
theorem EncodeDecode.orRegRam (r1 : Reg) (vx : Word) : EncodeDecode.Statement (.orRegRam r1 vx) := decode_encode_of (regAddr_back _ _ .orRegRam r1 vx)
theorem EncodeDecode.orRamreg (r1 r2 r3 : Reg) : EncodeDecode.Statement (.orRamreg r1 r2 r3) := decode_encode_of (three_back _ _ .orRamreg r1 r2 r3)
theorem EncodeDecode.popReg (r1 : Reg) : EncodeDecode.Statement (.popReg r1) := decode_encode_of (one_back _ _ .popReg r1)
theorem EncodeDecode.pshReg (r1 : Reg) : EncodeDecode.Statement (.pshReg r1) := decode_encode_of (one_back _ _ .pshReg r1)
theorem EncodeDecode.pshImm8 (v1 : Byte) : EncodeDecode.Statement (.pshImm8 v1) := decode_encode_of (byte_back _ _ .pshImm8 v1)
theorem EncodeDecode.ret : EncodeDecode.Statement .ret := decode_encode_of rfl
theorem EncodeDecode.sbbReg (r1 r2 : Reg) : EncodeDecode.Statement (.sbbReg r1 r2) := decode_encode_of (two_back _ _ .sbbReg r1 r2)
theorem EncodeDecode.sbbRegImm8 (r1 : Reg) (v1 : Byte) : EncodeDecode.Statement (.sbbRegImm8 r1 v1) := decode_encode_of (regByte_back _ _ .sbbRegImm8 r1 v1)
theorem EncodeDecode.sbbRegRam (r1 : Reg) (vx : Word) : EncodeDecode.Statement (.sbbRegRam r1 vx) := decode_encode_of (regAddr_back _ _ .sbbRegRam r1 vx)
theorem EncodeDecode.sbbRamreg (r1 r2 r3 : Reg) : EncodeDecode.Statement (.sbbRamreg r1 r2 r3) := decode_encode_of (three_back _ _ .sbbRamreg r1 r2 r3)
theorem EncodeDecode.shlReg (r1 : Reg) : EncodeDecode.Statement (.shlReg r1) := decode_encode_of (one_back _ _ .shlReg r1)
theorem EncodeDecode.shrReg (r1 : Reg) : EncodeDecode.Statement (.shrReg r1) := decode_encode_of (one_back _ _ .shrReg r1)
theorem EncodeDecode.stc : EncodeDecode.Statement .stc := decode_encode_of rfl
theorem EncodeDecode.ste : EncodeDecode.Statement .ste := decode_encode_of rfl
theorem EncodeDecode.stf : EncodeDecode.Statement .stf := decode_encode_of rfl
theorem EncodeDecode.sti : EncodeDecode.Statement .sti := decode_encode_of rfl
theorem EncodeDecode.stn : EncodeDecode.Statement .stn := decode_encode_of rfl
theorem EncodeDecode.strRegRam (r1 : Reg) (vx : Word) : EncodeDecode.Statement (.strRegRam r1 vx) := decode_encode_of (regAddr_back _ _ .strRegRam r1 vx)
theorem EncodeDecode.strRamreg (r1 r2 r3 : Reg) : EncodeDecode.Statement (.strRamreg r1 r2 r3) := decode_encode_of (three_back _ _ .strRamreg r1 r2 r3)
theorem EncodeDecode.sts : EncodeDecode.Statement .sts := decode_encode_of rfl
theorem EncodeDecode.stz : EncodeDecode.Statement .stz := decode_encode_of rfl
theorem EncodeDecode.subReg (r1 r2 : Reg) : EncodeDecode.Statement (.subReg r1 r2) := decode_encode_of (two_back _ _ .subReg r1 r2)
theorem EncodeDecode.subRegImm8 (r1 : Reg) (v1 : Byte) : EncodeDecode.Statement (.subRegImm8 r1 v1) := decode_encode_of (regByte_back _ _ .subRegImm8 r1 v1)
theorem EncodeDecode.subRegRam (r1 : Reg) (vx : Word) : EncodeDecode.Statement (.subRegRam r1 vx) := decode_encode_of (regAddr_back _ _ .subRegRam r1 vx)
theorem EncodeDecode.subRamreg (r1 r2 r3 : Reg) : EncodeDecode.Statement (.subRamreg r1 r2 r3) := decode_encode_of (three_back _ _ .subRamreg r1 r2 r3)
theorem EncodeDecode.xorReg (r1 r2 : Reg) : EncodeDecode.Statement (.xorReg r1 r2) := decode_encode_of (two_back _ _ .xorReg r1 r2)
theorem EncodeDecode.xorRegImm8 (r1 : Reg) (v1 : Byte) : EncodeDecode.Statement (.xorRegImm8 r1 v1) := decode_encode_of (regByte_back _ _ .xorRegImm8 r1 v1)
theorem EncodeDecode.xorRegRam (r1 : Reg) (vx : Word) : EncodeDecode.Statement (.xorRegRam r1 vx) := decode_encode_of (regAddr_back _ _ .xorRegRam r1 vx)
theorem EncodeDecode.xorRamreg (r1 r2 r3 : Reg) : EncodeDecode.Statement (.xorRamreg r1 r2 r3) := decode_encode_of (three_back _ _ .xorRamreg r1 r2 r3)

end Sys2Proof.Laws
end

