-- ==== Sys2Proof/Tests/Slice0.lean ====
section
/-! SUPPORT. The model's own tests: the smoke test of WellFormed, every form's word, one-step vectors of 95_test_vectors.md (the
source of every expected value below; a test's name gives the vector), and, for every obligation with hypotheses, a concrete
witness that meets them. -/

namespace Sys2Proof.Tests

open Sys2Proof.Machine

/-! Each test is small, but there are many of them: elaborated one after another they need no thread each. -/

set_option Elab.async false

/-! ### WellFormed: with `HAS_FLAG_OPS` false each flag instruction is refused (47_flag_ops.md R249) -/

/-- The fourteen forms that the check refuses when the parameter is false. -/
def flagForms : List Instr :=
  [.clc, .cle, .cli, .cln, .cls, .clz, .clf, .stc, .ste, .stf, .sti, .stn, .sts, .stz]

theorem test_wellformed_refuses_flag_ops : flagForms.all (fun i => !i.existsWith false) = true := by decide

theorem test_wellformed_accepts_flag_ops : flagForms.all (fun i => WellFormed i) = true := by decide

theorem test_wellformed_accepts_others :
    [Instr.nop, .hlt, .addReg .a .b, .cmpRegImm8 .y 0xFF, .strRamreg .a .b .c].all (·.existsWith false) = true := by decide

theorem test_decode_without_flag_ops :
    decode 0x14000000 { Config.params with hasFlagOps := false } = .unmatched .unassignedOpcode := by decide +kernel

/-! ### Other values of the parameters (00_scope.md R9) -/

/-- A layout with the opcode lowest and the mode next to it: every offset differs from the default's. -/
def otherLayout : Layout := { opcode := 0, mode := 6, r1 := 10, r2 := 13, r3 := 29, v1 := 16, v2 := 24 }

/-- The configuration argument with that layout, two opcodes exchanged, and other addresses. -/
def otherParams : Params :=
  { Config.params with
    layout := otherLayout
    opcode := fun o => match o with
      | .add => 0x0E
      | .hlt => 0x02
      | o => opcodeOf o
    ivtBase := 0x8000
    stackBase := 0x4000
    programStart := 0x1000
    irqQueueCapacity := 1 }

/-- By hand: opcode 2 in bits 5:0 is HLT; opcode 0x0E, mode 1 in bits 9:6, r1 = 2, r2 = 7 is ADD C Y. -/
theorem test_other_layout :
    decode 0x00000002 otherParams = .form .hlt ∧ decode 0x0000E84E otherParams = .form (.addReg .c .y) ∧
      encode (.addReg .c .y) otherParams = 0x0000E84E ∧ encode .hlt otherParams = 0x00000002 := by decide +kernel

theorem test_other_addresses :
    stackAddr 0xFF otherParams = 0x40FF ∧ vectorAddr 5 otherParams = 0x800A ∧ (resetWith otherParams).pc = 0x1000 ∧
      (triggerInterrupt 5 (triggerInterrupt 5 State.reset otherParams) otherParams).irqQueue.length = 1 := by decide +kernel

/-- The byte goes to the other stack base (10_state.md R30). -/
theorem test_other_step :
    (match execWith otherParams (.pshImm8 0x77) State.reset with
      | .next t => some (memRead 0x4000 t, memRead 0x0200 t)
      | .fault _ => none
      | .refused _ => none) = some (0x77, 0x00) := by decide +kernel

/-! ### Decoding -/

/-- Each word is read as its instruction, by the decoder the host asks, and the instruction's word is that word. -/
def decodesAll (rows : List (Nat × Instr)) : Bool :=
  rows.all fun p => decodeTableWord 32 p.1 == some p.2 && encode p.2 == BitVec.ofNat 32 p.1

/-- The words of the arith forms, written out field by field from the tables R71, R77 and R78 (spec/opcode_table.json). -/
theorem test_decode_arith :
    decodesAll
   [(0x08670000, .addReg .i .y), (0x08B8CB00, .addRegImm8 .y 0xCB), (0x08D0B12C, .addRegRam .c 0xB12C),
    (0x092E0000, .addRamreg .j .x .a), (0x04430000, .adcReg .a .d), (0x04985F00, .adcRegImm8 .d 0x5F),
    (0x04F0F138, .adcRegRam .x 0xF138), (0x050A8000, .adcRamreg .b .c .i), (0xB4670000, .subReg .i .y),
    (0xB4B8F300, .subRegImm8 .y 0xF3), (0xB4D03144, .subRegRam .c 0x3144), (0xB52E0000, .subRamreg .j .x .a)] = true ∧
    decodesAll
   [(0x88430000, .sbbReg .a .d), (0x88988700, .sbbRegImm8 .d 0x87), (0x88F07150, .sbbRegRam .x 0x7150),
    (0x890A8000, .sbbRamreg .b .c .i), (0x44600000, .incReg .i), (0x34780000, .decReg .y), (0x30510000, .cmpReg .c .b),
    (0x30A86500, .cmpRegImm8 .j 0x65), (0x30C0D162, .cmpRegRam .a 0xD162), (0x3118C000, .cmpRamreg .d .a .x)] = true := by decide +kernel

/-- The words of the logic forms, written out field by field from the tables R71, R77 and R78 (spec/opcode_table.json). -/
theorem test_decode_logic :
    decodesAll
   [(0x0C750000, .andReg .x .j), (0x0C88F900, .andRegImm8 .b 0xF9), (0x0CE0116E, .andRegRam .i 0x116E),
    (0x0D3C4000, .andRamreg .y .i .c), (0x78510000, .orReg .c .b), (0x78A88D00, .orRegImm8 .j 0x8D),
    (0x78C0517A, .orRegRam .a 0x517A), (0x7918C000, .orRamreg .d .a .x), (0xB8750000, .xorReg .x .j),
    (0xB8882100, .xorRegImm8 .b 0x21), (0xB8E09186, .xorRegRam .i 0x9186), (0xB93C4000, .xorRamreg .y .i .c)] = true ∧
    decodesAll
   [(0x74500000, .notReg .c), (0x8C680000, .shlReg .j), (0x90400000, .shrReg .a)] = true := by decide +kernel

/-- The words of the control forms, written out field by field from the tables R71, R77 and R78 (spec/opcode_table.json). -/
theorem test_decode_control :
    decodesAll
   [(0x6180E195, .jmpImm16 0xE195), (0x61750000, .jmpReg16 .x .j), (0x5180019B, .jmcImm16 0x019B),
    (0x51670000, .jmcReg16 .i .y), (0x558021A1, .jmeImm16 0x21A1), (0x55510000, .jmeReg16 .c .b),
    (0x598041A7, .jmfImm16 0x41A7), (0x59430000, .jmfReg16 .a .d), (0x5D8061AD, .jmnImm16 0x61AD),
    (0x5D750000, .jmnReg16 .x .j), (0x658081B3, .jmsImm16 0x81B3), (0x65670000, .jmsReg16 .i .y)] = true ∧
    decodesAll
   [(0x6980A1B9, .jmzImm16 0xA1B9), (0x69510000, .jmzReg16 .c .b), (0x1180C1BF, .calImm16 0xC1BF),
    (0x11430000, .calReg16 .a .d), (0x84000000, .ret)] = true := by decide +kernel

/-- The words of the stack forms, written out field by field from the tables R71, R77 and R78 (spec/opcode_table.json). -/
theorem test_decode_stack :
    decodesAll
   [(0x80700000, .pshReg .x), (0x81C09900, .pshImm8 0x99), (0x7C600000, .popReg .i)] = true := by decide +kernel

/-- The words of the memory and ports forms, written out field by field from the tables R71, R77 and R78 (spec/opcode_table.json). -/
theorem test_decode_memory_and_ports :
    decodesAll
   [(0x707C0000, .movReg .y .i), (0x70900800, .movRegImm8 .c 0x08), (0x6CE841D7, .lodRegRam .j 0x41D7),
    (0x6D03E000, .lodRamreg .a .d .y), (0xA8D861DD, .strRegRam .d 0x61DD), (0xA935A000, .strRamreg .x .j .j),
    (0x3C4A0000, .inReg .b .c), (0x3CA0E600, .inRegImm8 .i 0xE6), (0x407C0000, .outReg .y .i),
    (0x40903000, .outRegImm8 .c 0x30)] = true := by decide +kernel

/-- The words of the system forms, written out field by field from the tables R71, R77 and R78 (spec/opcode_table.json). -/
theorem test_decode_system :
    decodesAll
   [(0x00000000, .nop), (0x38000000, .hlt), (0x49C09F00, .intImm8 0x9F), (0x4C000000, .irt)] = true := by decide +kernel

/-- The words of the flags forms, written out field by field from the tables R71, R77 and R78 (spec/opcode_table.json). -/
theorem test_decode_flags :
    decodesAll
   [(0x14000000, .clc), (0x18000000, .cle), (0x1C000000, .cli), (0x20000000, .cln), (0x24000000, .cls), (0x28000000, .clz),
    (0x2C000000, .clf), (0x94000000, .stc), (0x98000000, .ste), (0x9C000000, .stf), (0xA0000000, .sti), (0xA4000000, .stn)] = true ∧
    decodesAll
   [(0xAC000000, .sts), (0xB0000000, .stz)] = true := by decide +kernel

/-- Unused bits are ignored (30_encoding.md R76): section 2 of 95_test_vectors.md. -/
theorem test_decode_ignores_unused_bits :
    decode 0x70BFFFFF = .form (.movRegImm8 .y 0xFF) ∧ decode 0x6D255FFF = .form (.lodRamreg .i .j .c) ∧
      decode 0x383FFFFF = .form .hlt := by decide +kernel

/-- Unmatched words, each by its name (30_encoding.md R80): V94 to V99. -/
theorem test_decode_unmatched :
    decode 0x09400000 = .unmatched .unsupportedForm ∧ decode 0x70C01234 = .unmatched .unsupportedForm ∧
      decode 0xFC000000 = .unmatched .unassignedOpcode ∧ decode 0x03C00000 = .unmatched .unnamedMode ∧
      decode 0x44800100 = .unmatched .unsupportedForm ∧ decode 0x61C01234 = .unmatched .unsupportedForm := by decide +kernel

/-- A word the table gives fewer bits is zero above them; an unmatched word is no instruction. -/
theorem test_table_word : tableWord 16 0xABCD1234 = 0x1234 ∧ decodeTableWord 32 0xFC000000 = none := by decide +kernel

/-! ### One step -/

/-- The reset state with registers written. -/
def withRegs (rs : List (Reg × Byte)) : State := rs.foldl (fun s p => writeReg p.1 p.2 s) State.reset

/-- `s` with bytes of memory written. -/
def withBytes (cells : List (Word × Byte)) (s : State) : State := cells.foldl (fun t p => memWrite p.1 p.2 t) s

/-- All flags 0 but F.I, as after reset. -/
def plain : Flags := State.reset.flags

/-- What the test looks at in the state after one step that runs the word `w`. -/
def after {α : Type} (w : Nat) (s : State) (view : State → α) : Option α :=
  match step (s.withFetchWord 32 w) with
  | .next t => some (view t)
  | .fault _ => none
  | .refused _ => none

/-- A register, the flags and the PC. -/
def regFlagsPc (r : Reg) (t : State) : Byte × Flags × Word := (readReg r t, t.flags, t.pc)

/-- The stack pointer, the latch, the flags and the PC. -/
def stackView (t : State) : Byte × Bool × Flags × Word := (t.sp, t.full, t.flags, t.pc)

/-- V2. -/
theorem test_V2_add :
    after 0x08410000 (withRegs [(.a, 0xFF), (.b, 0x01)]) (regFlagsPc .a) =
      some (0x00, { plain with carry := true, zero := true }, 0x0304) := by decide +kernel

/-- V8. -/
theorem test_V8_add_ramreg :
    after 0x09374000 (withBytes [(0x1234, 0xFF)] (withRegs [(.c, 0x01), (.x, 0x12), (.y, 0x34)])) (regFlagsPc .c) =
      some (0x00, { plain with carry := true, zero := true }, 0x0304) := by decide +kernel

/-- V10. -/
theorem test_V10_adc :
    after 0x04410000 ((withRegs [(.a, 0xFF), (.b, 0xFF)]).setFlags { plain with carry := true }) (regFlagsPc .a) =
      some (0xFF, { plain with carry := true, negative := true }, 0x0304) := by decide +kernel

/-- V12. -/
theorem test_V12_adc :
    after 0x04410000 (withRegs [(.a, 0x10), (.b, 0x20)]) (regFlagsPc .a) =
      some (0x30, plain, 0x0304) := by decide +kernel

/-- V13. -/
theorem test_V13_sub :
    after 0xB4410000 (withRegs [(.a, 0x05), (.b, 0x07)]) (regFlagsPc .a) =
      some (0xFE, { plain with carry := true, negative := true }, 0x0304) := by decide +kernel

/-- V14. -/
theorem test_V14_sub_same :
    after 0xB4400000 (withRegs [(.a, 0x42)]) (regFlagsPc .a) =
      some (0x00, { plain with zero := true }, 0x0304) := by decide +kernel

/-- V16. -/
theorem test_V16_sbb :
    after 0x88410000 ((withRegs [(.a, 0x10), (.b, 0x05)]).setFlags { plain with carry := true }) (regFlagsPc .a) =
      some (0x0A, plain, 0x0304) := by decide +kernel

/-- V18. -/
theorem test_V18_sbb :
    after 0x88410000 ((withRegs [(.a, 0x00), (.b, 0xFF)]).setFlags { plain with carry := true }) (regFlagsPc .a) =
      some (0x00, { plain with carry := true, zero := true }, 0x0304) := by decide +kernel

/-- V19. -/
theorem test_V19_inc :
    after 0x44500000 (withRegs [(.c, 0xFF)]) (regFlagsPc .c) =
      some (0x00, { plain with carry := true, zero := true }, 0x0304) := by decide +kernel

/-- V20. -/
theorem test_V20_inc :
    after 0x44500000 (withRegs [(.c, 0x7F)]) (regFlagsPc .c) =
      some (0x80, { plain with negative := true }, 0x0304) := by decide +kernel

/-- V21. -/
theorem test_V21_dec :
    after 0x34580000 (withRegs [(.d, 0x00)]) (regFlagsPc .d) =
      some (0xFF, { plain with carry := true, negative := true }, 0x0304) := by decide +kernel

/-- V22. -/
theorem test_V22_dec :
    after 0x34580000 (withRegs [(.d, 0x01)]) (regFlagsPc .d) =
      some (0x00, { plain with zero := true }, 0x0304) := by decide +kernel

/-- V24. -/
theorem test_V24_cmp :
    after 0x30410000 (withRegs [(.a, 0x80), (.b, 0x7F)]) (regFlagsPc .a) =
      some (0x80, { plain with superior := true }, 0x0304) := by decide +kernel

/-- V25. -/
theorem test_V25_cmp_same :
    after 0x30400000 ((withRegs [(.a, 0x10)]).setFlags { plain with superior := true, inferior := true }) (regFlagsPc .a) =
      some (0x10, { plain with equal := true }, 0x0304) := by decide +kernel

/-- V28. -/
theorem test_V28_and :
    after 0x0C410000 ((withRegs [(.a, 0xF0), (.b, 0x0F)]).setFlags { plain with carry := true }) (regFlagsPc .a) =
      some (0x00, { plain with carry := true, zero := true }, 0x0304) := by decide +kernel

/-- V27. -/
theorem test_V27_and_imm :
    after 0x0C803C00 (withRegs [(.a, 0xF0)]) (regFlagsPc .a) =
      some (0x30, plain, 0x0304) := by decide +kernel

/-- V29. -/
theorem test_V29_or :
    after 0x78410000 (withRegs [(.a, 0x0F), (.b, 0x80)]) (regFlagsPc .a) =
      some (0x8F, { plain with negative := true }, 0x0304) := by decide +kernel

/-- V30. -/
theorem test_V30_or :
    after 0x78410000 State.reset (regFlagsPc .a) =
      some (0x00, { plain with zero := true }, 0x0304) := by decide +kernel

/-- V31. -/
theorem test_V31_xor_same :
    after 0xB8400000 (withRegs [(.a, 0x5A)]) (regFlagsPc .a) =
      some (0x00, { plain with zero := true }, 0x0304) := by decide +kernel

/-- V32. -/
theorem test_V32_xor_ramreg :
    after 0xB9250000 (withBytes [(0x2000, 0x0F)] (withRegs [(.a, 0xFF), (.i, 0x20), (.j, 0x00)])) (regFlagsPc .a) =
      some (0xF0, { plain with negative := true }, 0x0304) := by decide +kernel

/-- V33. -/
theorem test_V33_not :
    after 0x74480000 (withRegs [(.b, 0x5A)]) (regFlagsPc .b) =
      some (0xA5, { plain with negative := true }, 0x0304) := by decide +kernel

/-- V34. -/
theorem test_V34_not :
    after 0x74480000 (withRegs [(.b, 0xFF)]) (regFlagsPc .b) =
      some (0x00, { plain with zero := true }, 0x0304) := by decide +kernel

/-- V35. -/
theorem test_V35_shl :
    after 0x8C400000 (withRegs [(.a, 0xC1)]) (regFlagsPc .a) =
      some (0x82, { plain with carry := true, negative := true }, 0x0304) := by decide +kernel

/-- V36. -/
theorem test_V36_shl :
    after 0x8C400000 (withRegs [(.a, 0x80)]) (regFlagsPc .a) =
      some (0x00, { plain with carry := true, zero := true }, 0x0304) := by decide +kernel

/-- V37. -/
theorem test_V37_shr :
    after 0x90400000 ((withRegs [(.a, 0x81)]).setFlags { plain with negative := true }) (regFlagsPc .a) =
      some (0x40, { plain with carry := true, negative := true }, 0x0304) := by decide +kernel

/-- V39. -/
theorem test_V39_shr :
    after 0x90400000 ((withRegs [(.a, 0x02)]).setFlags { plain with carry := true }) (regFlagsPc .a) =
      some (0x01, plain, 0x0304) := by decide +kernel

/-- V42. -/
theorem test_V42_jmp_self :
    after 0x61800300 State.reset (regFlagsPc .a) =
      some (0x00, plain, 0x0300) := by decide +kernel

/-- V41. -/
theorem test_V41_jmp_reg16 :
    after 0x61650000 (withRegs [(.i, 0x04), (.j, 0x08)]) (regFlagsPc .a) =
      some (0x00, plain, 0x0408) := by decide +kernel

/-- V43. -/
theorem test_V43_jmc :
    after 0x51800400 (State.reset.setFlags { plain with carry := true }) (regFlagsPc .a) =
      some (0x00, { plain with carry := true }, 0x0400) := by decide +kernel

/-- V44. -/
theorem test_V44_jmc_not_taken :
    after 0x51800400 State.reset (regFlagsPc .a) =
      some (0x00, plain, 0x0304) := by decide +kernel

/-- V45. -/
theorem test_V45_jme :
    after 0x55800500 (State.reset.setFlags { plain with equal := true }) (regFlagsPc .a) =
      some (0x00, { plain with equal := true }, 0x0500) := by decide +kernel

/-- V46. -/
theorem test_V46_jmf :
    after 0x59800600 (State.reset.setFlags { plain with inferior := true }) (regFlagsPc .a) =
      some (0x00, { plain with inferior := true }, 0x0600) := by decide +kernel

/-- V47. -/
theorem test_V47_jmn :
    after 0x5D800700 (State.reset.setFlags { plain with negative := true }) (regFlagsPc .a) =
      some (0x00, { plain with negative := true }, 0x0700) := by decide +kernel

/-- V48. -/
theorem test_V48_jms_reg16 :
    after 0x65770000 ((withRegs [(.x, 0x08), (.y, 0x00)]).setFlags { plain with superior := true }) (regFlagsPc .a) =
      some (0x00, { plain with superior := true }, 0x0800) := by decide +kernel

/-- V49. -/
theorem test_V49_jmz_not_taken :
    after 0x69800340 State.reset (regFlagsPc .a) =
      some (0x00, plain, 0x0304) := by decide +kernel

/-- V50. -/
theorem test_V50_cal :
    after 0x11800400 State.reset (fun t => (stackView t, memRead 0x0200 t)) =
      some ((0x02, false, plain, 0x0400), 0x03) := by decide +kernel

/-- V51. -/
theorem test_V51_cal_second_push_fails :
    after 0x11800400 (State.reset.setStack 0xFF false) (fun t => (stackView t, memRead 0x02FF t)) =
      some ((0x00, true, { plain with carry := true }, 0x0400), 0x03) := by decide +kernel

/-- V54. -/
theorem test_V54_ret :
    after 0x84000000 ((withBytes [(0x0200, 0x04), (0x0201, 0x03)] State.reset).setStack 0x02 false) stackView =
      some (0x00, false, plain, 0x0403) := by decide +kernel

/-- V56. -/
theorem test_V56_ret_one_byte :
    after 0x84000000 ((withBytes [(0x0200, 0x44)] State.reset).setStack 0x01 false) stackView =
      some (0x00, false, { plain with carry := true }, 0x0044) := by decide +kernel

/-- V59. -/
theorem test_V59_psh_256th :
    after 0x80400000 ((withRegs [(.a, 0x2A)]).setStack 0xFF false) (fun t => (stackView t, memRead 0x02FF t)) =
      some ((0x00, true, plain, 0x0304), 0x2A) := by decide +kernel

/-- V60. -/
theorem test_V60_psh_257th :
    after 0x80400000 ((withRegs [(.a, 0x2A)]).setStack 0x00 true) (fun t => (stackView t, memRead 0x0200 t)) =
      some ((0x00, true, { plain with carry := true }, 0x0304), 0x00) := by decide +kernel

/-- V62. -/
theorem test_V62_pop_empty :
    after 0x7C480000 (withRegs [(.b, 0x33)]) (regFlagsPc .b) =
      some (0x33, { plain with carry := true }, 0x0304) := by decide +kernel

/-- V63. -/
theorem test_V63_pop_from_full :
    after 0x7C480000 ((withBytes [(0x02FF, 0x77)] State.reset).setStack 0x00 true)
        (fun t => (stackView t, readReg .b t)) =
      some ((0xFF, false, plain, 0x0304), 0x77) := by decide +kernel

/-- V65. -/
theorem test_V65_mov_imm :
    after 0x70800500 State.reset (regFlagsPc .a) =
      some (0x05, plain, 0x0304) := by decide +kernel

/-- V66. -/
theorem test_V66_mov :
    after 0x70410000 (withRegs [(.b, 0x9C)]) (regFlagsPc .a) =
      some (0x9C, plain, 0x0304) := by decide +kernel

/-- V67. -/
theorem test_V67_lod :
    after 0x6CC01234 (withBytes [(0x1234, 0x99)] State.reset) (regFlagsPc .a) =
      some (0x99, plain, 0x0304) := by decide +kernel

/-- V68. -/
theorem test_V68_lod_uses_old_i :
    after 0x6D258000 (withBytes [(0x1234, 0x56)] (withRegs [(.i, 0x12), (.j, 0x34)])) (regFlagsPc .i) =
      some (0x56, plain, 0x0304) := by decide +kernel

/-- V69. -/
theorem test_V69_str : after 0xA8C01000 (withRegs [(.a, 0x0F)]) (fun t => (memRead 0x1000 t, t.pc)) =
    some (0x0F, 0x0304) := by decide +kernel

/-- V70. -/
theorem test_V70_str_ramreg :
    after 0xA9370000 (withRegs [(.x, 0x12), (.y, 0x34), (.a, 0x77)]) (fun t => (memRead 0x1234 t, t.pc)) =
      some (0x77, 0x0304) := by decide +kernel

/-- V71. -/
theorem test_V71_in : after 0x3C801000 (portWrite 0x10 0x41 State.reset) (regFlagsPc .a) =
    some (0x41, plain, 0x0304) := by decide +kernel

/-- V72. -/
theorem test_V72_in_reg : after 0x3C410000 (portWrite 0x10 0x41 (withRegs [(.b, 0x10)])) (regFlagsPc .a) =
    some (0x41, plain, 0x0304) := by decide +kernel

/-- V73. -/
theorem test_V73_out : after 0x40802000 (withRegs [(.a, 0x01)]) (fun t => (portRead 0x20 t, t.pc)) =
    some (0x01, 0x0304) := by decide +kernel

/-- V74. -/
theorem test_V74_out_reg : after 0x40410000 (withRegs [(.a, 0x20), (.b, 0x5E)]) (fun t => (portRead 0x20 t, t.pc)) =
    some (0x5E, 0x0304) := by decide +kernel

/-- V75. -/
theorem test_V75_nop :
    after 0x00000000 State.reset (regFlagsPc .a) =
      some (0x00, plain, 0x0304) := by decide +kernel

/-- V76. -/
theorem test_V76_hlt :
    after 0x38000000 (State.reset.setFlags { plain with interrupt := false }) (regFlagsPc .a) =
      some (0x00, { plain with interrupt := true, halt := true }, 0x0304) := by decide +kernel

/-- V77. -/
theorem test_V77_int :
    after 0x49C00500 (withBytes [(0x000A, 0x20), (0x000B, 0x00)] (withRegs [(.i, 0x55)]))
        (fun t => (stackView t, memRead 0x0200 t, memRead 0x0201 t, memRead 0x0202 t)) =
      some ((0x03, false, { plain with interrupt := false }, 0x2000), 0x55, 0x03, 0x04) := by decide +kernel

/-- V78. -/
theorem test_V78_irt :
    after 0x4C000000 (((withBytes [(0x0200, 0x55), (0x0201, 0x03), (0x0202, 0x04)] State.reset).setStack 0x03 false).setFlags
        { plain with interrupt := false }) (fun t => (stackView t, readReg .i t)) =
      some ((0x00, false, plain, 0x0304), 0x55) := by decide +kernel

/-- V79. -/
theorem test_V79_irt_empty :
    after 0x4C000000 ((withRegs [(.i, 0x66)]).setFlags { plain with interrupt := false }) (regFlagsPc .i) =
      some (0x66, { plain with carry := true }, 0x0000) := by decide +kernel

/-- V80. -/
theorem test_V80_clc :
    after 0x14000000 (State.reset.setFlags { plain with carry := true }) (regFlagsPc .a) =
      some (0x00, plain, 0x0304) := by decide +kernel

/-- V81. -/
theorem test_V81_stc :
    after 0x94000000 State.reset (regFlagsPc .a) =
      some (0x00, { plain with carry := true }, 0x0304) := by decide +kernel

/-- V82. -/
theorem test_V82_cle :
    after 0x18000000 (State.reset.setFlags { plain with equal := true }) (regFlagsPc .a) =
      some (0x00, plain, 0x0304) := by decide +kernel

/-- V83. -/
theorem test_V83_ste :
    after 0x98000000 State.reset (regFlagsPc .a) =
      some (0x00, { plain with equal := true }, 0x0304) := by decide +kernel

/-- V84. -/
theorem test_V84_clf :
    after 0x2C000000 (State.reset.setFlags { plain with inferior := true }) (regFlagsPc .a) =
      some (0x00, plain, 0x0304) := by decide +kernel

/-- V85. -/
theorem test_V85_stf :
    after 0x9C000000 State.reset (regFlagsPc .a) =
      some (0x00, { plain with inferior := true }, 0x0304) := by decide +kernel

/-- V86. -/
theorem test_V86_cli :
    after 0x1C000000 State.reset (regFlagsPc .a) =
      some (0x00, { plain with interrupt := false }, 0x0304) := by decide +kernel

/-- V87. -/
theorem test_V87_sti :
    after 0xA0000000 (State.reset.setFlags { plain with interrupt := false }) (regFlagsPc .a) =
      some (0x00, plain, 0x0304) := by decide +kernel

/-- V88. -/
theorem test_V88_cln :
    after 0x20000000 (State.reset.setFlags { plain with negative := true }) (regFlagsPc .a) =
      some (0x00, plain, 0x0304) := by decide +kernel

/-- V89. -/
theorem test_V89_stn :
    after 0xA4000000 State.reset (regFlagsPc .a) =
      some (0x00, { plain with negative := true }, 0x0304) := by decide +kernel

/-- V90. -/
theorem test_V90_cls :
    after 0x24000000 (State.reset.setFlags { plain with superior := true }) (regFlagsPc .a) =
      some (0x00, plain, 0x0304) := by decide +kernel

/-- V91. -/
theorem test_V91_sts :
    after 0xAC000000 State.reset (regFlagsPc .a) =
      some (0x00, { plain with superior := true }, 0x0304) := by decide +kernel

/-- V92. -/
theorem test_V92_clz :
    after 0x28000000 (State.reset.setFlags { plain with zero := true }) (regFlagsPc .a) =
      some (0x00, plain, 0x0304) := by decide +kernel

/-- V93. -/
theorem test_V93_stz :
    after 0xB0000000 State.reset (regFlagsPc .a) =
      some (0x00, { plain with zero := true }, 0x0304) := by decide +kernel

/-- V94. -/
theorem test_V94_unmatched :
    after 0x09400000 (withRegs [(.a, 0x01)]) (regFlagsPc .a) =
      some (0x01, plain, 0x0304) := by decide +kernel

/-- V99. -/
theorem test_V99_unmatched_jmp :
    after 0x61C01234 State.reset (regFlagsPc .a) =
      some (0x00, plain, 0x0304) := by decide +kernel

/-- V102: the fetch wraps at the top of memory. -/
theorem test_V102_fetch_wraps :
    after 0x70800500 (State.reset.setPc 0xFFFE) (fun t => (t.ir, t.modeView, readReg .a t, t.pc)) =
      some (0x70800500, 2, 0x05, 0x0002) := by decide +kernel

/-! ### The bus fabric and the environment -/

/-- V103 to V106: port blocks, first fit, and the failures. -/
theorem test_V103_port_blocks :
    ((requestPorts 1 7 State.reset).1, (requestPorts 2 2 (requestPorts 1 7 State.reset).2).1) =
      ([0, 1, 2, 3, 4, 5, 6], [7, 8]) := by decide +kernel

theorem test_V104_too_many : (requestPorts 3 248 (requestPorts 1 9 State.reset).2).1 = [] := by decide +kernel

theorem test_V105_all_left :
    ((requestPorts 3 247 (requestPorts 1 9 State.reset).2).1.length,
      (requestPorts 3 247 (requestPorts 1 9 State.reset).2).1.getLast?) = (247, some 255) := by decide +kernel

theorem test_V106_failures : requestPorts 4 0 State.reset = ([], State.reset) ∧ requestPorts 0 1 State.reset = ([], State.reset) := by
  decide +kernel

/-- V107: the data is captured at the trigger. -/
theorem test_V107_trigger_captures :
    (portWrite 5 0x22 (triggerInterrupt 5 (portWrite 5 0x11 State.reset))).irqQueue = [{ port := 5, data := 0x11 }] := by
  decide +kernel

/-- `n` records of port 5 in the queue. -/
def queueOf (n : Nat) (s : State) : State := s.setIrqQueue (List.replicate n { port := 5, data := 0 })

/-- V108: the 257th record is dropped. -/
theorem test_V108_full_queue :
    (triggerInterrupt 5 (queueOf 255 State.reset)).irqQueue.length = 256 ∧
      (triggerInterrupt 5 (queueOf 256 State.reset)).irqQueue.length = 256 := by decide +kernel

/-- V109. -/
theorem test_V109_request_rises :
    (iodTick (State.reset.setIrqQueue [{ port := 3, data := 0x42 }])).intRequest = true := by decide +kernel

/-- V110. -/
theorem test_V110_delivery :
    iodTick (((State.reset.setIntReady true).setIntRequest true).setIrqQueue
        [{ port := 3, data := 0x42 }, { port := 8, data := 0x01 }]) =
      ((State.reset.setIntReady true).setIrqQueue [{ port := 8, data := 0x01 }]).setBuses 0x0003 0x42 := by decide +kernel

/-- A socket works for the device that owns its port, and for no other (60_exceptions.md R286). -/
theorem test_socket_duty :
    ownsPort 1 6 (requestPorts 1 7 State.reset).2 = true ∧ ownsPort 2 6 (requestPorts 1 7 State.reset).2 = false ∧
      ownsPort 0 9 (requestPorts 1 7 State.reset).2 = false ∧ isFirstPort 1 0 (requestPorts 1 7 State.reset).2 = true ∧
      isFirstPort 1 6 (requestPorts 1 7 State.reset).2 = false := by decide +kernel

/-- The memory of the reset state is in canonical form. -/
theorem test_reset_memory_wf : State.reset.mem.wf = true := by decide

/-! ### Witnesses: the hypotheses of the obligations can be met

Each theorem gives concrete states and operands that meet the hypotheses (of each clause) of the obligation in its name. -/

/-- A halted idle CPU. -/
def halted : State := State.reset.setFlags { plain with halt := true }

/-- The word of `i` placed where the reset state fetches. -/
def placed (i : Instr) : State := State.reset.withFetchWord 32 (encode i).toNat

/-- A CPU in interrupt management, with the record of port 3 delivered. -/
def managing : State := ((State.reset.setCpuState .interruptManagement).setIntReady true).setBuses 3 0x42

/-- Port 0 owned by device 1. -/
def onePort : State := State.reset.setPortOwner [(0, 1)]

theorem halted_inv : halted.Inv := by constructor <;> decide +kernel

theorem managing_inv : managing.Inv := by constructor <;> decide +kernel

/-- Interrupts masked, one record queued and requested. -/
def masked : State :=
  ((State.reset.setFlags { plain with interrupt := false }).setIrqQueue [{ port := 8, data := 0 }]).setIntRequest true

theorem masked_inv : masked.Inv := by constructor <;> decide +kernel

theorem witness_EncodeDecodeAllForms : WellFormed .stz = true ∧ WellFormed (.strRamreg .y .x .y) = true := by decide

theorem witness_DecodeReadsExactlyItsFields :
    decode 0x70BFFFFF = .form (.movRegImm8 .y 0xFF) ∧ (0x70BFFFFF : Dword) &&& (Instr.movRegImm8 .y 0xFF).readMask =
      encode (.movRegImm8 .y 0xFF) := by decide +kernel

theorem witness_SupportedFormsAreTheTable :
    ((Op.add, Mode.reg) ∈ supportedForms ∧ opcodeField 0x08410000 = opcodeOf .add ∧ modeField 0x08410000 = modeCode .reg) ∧
      ∀ p ∈ supportedForms, ¬ (opcodeField 0x09400000 = opcodeOf p.1 ∧ modeField 0x09400000 = modeCode p.2) := by decide +kernel

/-- For `OnlyModes` in IncAndDec, NotAndShifts and MoveInstructions. -/
theorem witness_OnlyModes :
    (opcodeField 0x44800100 = 0x11 ∧ modeField 0x44800100 ∉ [1#4]) ∧ (opcodeField 0x34000000 = 0x0D ∧ modeField 0x34000000 ∉ [1#4]) ∧
      (opcodeField 0x74800000 = 0x1D ∧ modeField 0x74800000 ∉ [1#4]) ∧
      (opcodeField 0x8C000000 = 0x23 ∧ modeField 0x8C000000 ∉ [1#4]) ∧
      (opcodeField 0x93C00000 = 0x24 ∧ modeField 0x93C00000 ∉ [1#4]) ∧
      (opcodeField 0x70C01234 = 0x1C ∧ modeField 0x70C01234 ∉ [1#4, 2#4]) := by decide +kernel

theorem witness_StepRunsDecodedInstruction :
    (placed .hlt).willFetch = true ∧ decode (fetch32 (placed .hlt).pc (placed .hlt)) = .form .hlt ∧
      ∃ t, exec .hlt ((placed .hlt).setFetched (fetch32 (placed .hlt).pc (placed .hlt))
        (modeField (fetch32 (placed .hlt).pc (placed .hlt)))) = .next t :=
  ⟨by decide +kernel, by decide +kernel, _, rfl⟩

theorem witness_UnmatchedWordIsNoOp :
    (State.reset.withFetchWord 32 0xFC000000).willFetch = true ∧ (State.reset.withFetchWord 32 0xFC000000).jmp = false ∧
      decode (fetch32 0x0300 (State.reset.withFetchWord 32 0xFC000000)) = .unmatched .unassignedOpcode := by decide +kernel

/-- For HaltedTickChangesNothing and the second clause of EveryTickIsDefined (V100). -/
theorem witness_HaltedTickChangesNothing :
    halted.cpuState = .instructionExec ∧ halted.flags.halt = true ∧
      ¬ (halted.flags.interrupt = true ∧ halted.intRequest = true) ∧ halted.ended = true := by decide +kernel

/-- V111, with a record queued and with none. -/
theorem witness_InterruptEntryFirstTick :
    ∀ s ∈ [halted.setIntRequest true, (queueOf 2 halted).setIntRequest true],
      s.cpuState = .instructionExec ∧ s.flags.interrupt = true ∧ s.intRequest = true := by decide +kernel

/-- V112, and the prologue tick. -/
theorem witness_InterruptPrologue :
    managing.cpuState = .interruptManagement ∧ managing.intRequest = false ∧
      (managing.setIntRequest true).cpuState = .interruptManagement ∧ (managing.setIntRequest true).intRequest = true := by
  decide +kernel

theorem witness_HandlerAddressFromVectorTable :
    (∃ t, exec (.intImm8 0xFF) State.reset = .next t) ∧
      managing.cpuState = .interruptManagement ∧ managing.intRequest = false ∧ ∃ t, cpuTick managing = .next t :=
  ⟨⟨_, rfl⟩, rfl, rfl, _, rfl⟩

theorem witness_InterruptWakesHaltedCpu :
    halted.Inv ∧ halted.cpuState = .instructionExec ∧ halted.flags.halt = true ∧ halted.irqQueue = [] ∧ halted.intRequest = false :=
  ⟨halted_inv, by decide⟩

theorem witness_MaskedInterruptIsNotServed :
    masked.Inv ∧ masked.cpuState = .instructionExec ∧ masked.flags.interrupt = false ∧ ∃ t, step masked = .next t :=
  ⟨masked_inv, by decide, by decide, _, rfl⟩

theorem witness_IodTickRaisesOrDelivers :
    State.reset.intReady = false ∧ (managing.intReady = true ∧ managing.irqQueue = []) ∧
      (queueOf 1 managing).intReady = true ∧ (queueOf 1 managing).irqQueue = { port := 5, data := 0 } :: [] := by decide +kernel

/-- One below the capacity, and at it. -/
theorem witness_TriggerQueuesOrDrops :
    (queueOf 255 State.reset).irqQueue.length < Config.irqQueueCapacity ∧
      Config.irqQueueCapacity ≤ (queueOf 256 State.reset).irqQueue.length ∧ (queueOf 256 State.reset).intReady = false := by
  decide +kernel

/-- `JumpsWhen`, in ConditionalJumps and JumpIfInferior: each flag once set and once clear. -/
theorem witness_ConditionalJumps :
    ∀ get ∈ [Flags.carry, Flags.equal, Flags.inferior, Flags.negative, Flags.superior, Flags.zero],
      get { carry := true, equal := true, interrupt := true, negative := true, superior := true, zero := true,
            inferior := true, halt := false } = true ∧ get plain = false := by simp [plain, State.reset]

/-- Both forms, and both clauses of the stack's closed form: a slot written and an address outside. -/
theorem witness_CallPushesReturnAddress :
    ((∃ vx, Instr.calImm16 0x0400 = .calImm16 vx) ∧ ∃ r1 r2, Instr.calReg16 .i .j = .calReg16 r1 r2) ∧
      1 < min 2 (stackFree State.reset) ∧ ∀ k, k < min 2 (stackFree State.reset) → (0x0300 : Word) ≠ pushSlot State.reset k := by
  refine ⟨⟨⟨_, rfl⟩, _, _, rfl⟩, by decide, by decide +kernel⟩

theorem witness_PushInstruction :
    (∃ r1, Instr.pshReg .y = .pshReg r1) ∧ ∃ v1, Instr.pshImm8 0x99 = .pshImm8 v1 := ⟨⟨_, rfl⟩, _, rfl⟩

theorem witness_PushPrimitive :
    (State.reset.setStack 0 true).full = true ∧ (State.reset.setStack 0xFF false).full = false := by decide

/-- The empty stack; the full one and the one of one byte, which are not empty. -/
theorem witness_PopPrimitive :
    (State.reset.sp = 0 ∧ State.reset.full = false) ∧
      ¬ ((State.reset.setStack 0 true).sp = 0 ∧ (State.reset.setStack 0 true).full = false) ∧
      ¬ ((State.reset.setStack 1 false).sp = 0 ∧ (State.reset.setStack 1 false).full = false) := by decide

/-- Exactly as many bytes as fit: for StackIsLastInFirstOut, CallThenReturn and SoftwareInterruptThenReturn. -/
theorem witness_stack_room :
    [(0x11 : Byte), 0x22].length ≤ stackFree (State.reset.setStack 0xFE false) ∧
      2 ≤ stackFree (State.reset.setStack 0xFE false) ∧ 3 ≤ stackFree (State.reset.setStack 0xFD false) ∧
      ¬ 3 ≤ stackFree (State.reset.setStack 0xFE false) := by decide +kernel

theorem witness_CallThenReturn : ∃ vx, Instr.calImm16 0x0400 = .calImm16 vx := ⟨_, rfl⟩

theorem witness_MemoryWriteIsExact : (memWrite 0xFFFF 0x42 State.reset).mem.wf = true := by decide +kernel

/-- The right size, and one byte short: for InitLoadsAndResets and NoTickBeforeInit. -/
theorem witness_InitLoadsAndResets :
    (List.replicate 65536 (0 : Byte)).length = 65536 ∧ (List.replicate 65535 (0 : Byte)).length ≠ 65536 := by
  simp only [List.length_replicate]; decide

/-- The session's start: a state with its owner table, and one of the actions that it does not answer. -/
theorem witness_NoTickBeforeInit :
    State.reset.portOwner = Session.start.portOwner ∧ ∃ a v, EnvAction.writeRam 0xFFFF 0x42 = .writeRam a v :=
  ⟨rfl, _, _, rfl⟩

/-- The last block of the table is the first free one. -/
theorem witness_PortRequestFirstFit_success :
    IsFreeBlock onePort 1 255 ∧ ∀ c, c < 1 → ¬ IsFreeBlock onePort c 255 := by
  refine ⟨⟨by decide, fun p h1 _ => ?_⟩, fun c h1 h2 => ?_⟩
  · show lookup 0 [(0, 1)] p = 0
    simp [lookup, show ¬ 0 = p by omega]
  · obtain rfl : c = 0 := by omega
    exact absurd (h2.2 0 (by decide) (by decide)) (by decide +kernel)

/-- No block is left for all 256 ports (W10). -/
theorem witness_PortRequestFirstFit_failure : ∀ b, ¬ IsFreeBlock onePort b 256 := by
  intro b h
  obtain rfl : b = 0 := by have := h.1; omega
  exact absurd (h.2 0 (by decide) (by decide)) (by decide +kernel)

/-- A port owned before init and one owned after it, each with actions that answer, a request among them. -/
theorem witness_PortOwnershipIsPermanent :
    ((Session.beforeInit [(0, 1)]).ownerOf 0 ≠ 0 ∧
        ∃ y r, (Session.beforeInit [(0, 1)]).actAll [.requestPorts 3 0, .requestPorts 2 255] = .next (y, r)) ∧
      (Session.running onePort).ownerOf 0 ≠ 0 ∧
        ∃ y r, (Session.running onePort).actAll [.tick, .requestPorts 2 255] = .next (y, r) :=
  ⟨⟨by decide, _, _, rfl⟩, by decide, _, _, rfl⟩

theorem witness_StepKeepsInvariant :
    (masked.Inv ∧ ∃ t, step masked = .next t) ∧ managing.Inv ∧ ∃ t, step managing = .next t :=
  ⟨⟨masked_inv, _, rfl⟩, managing_inv, _, rfl⟩

theorem witness_ActionsKeepInvariant :
    (Session.running masked).Inv ∧ Session.Inv Session.start ∧
      ∃ y r, (Session.running masked).actAll [.requestPorts 1 1, .tick, .triggerInterrupt 1 0] = .next (y, r) :=
  ⟨masked_inv, by simp [Session.Inv, Session.start]; decide, _, _, rfl⟩

theorem witness_HaltFlagWriters :
    (∃ t, exec .hlt State.reset = .next t ∧ t.flags.halt ≠ State.reset.flags.halt) ∧
      ∃ t, exec (.intImm8 5) halted = .next t ∧ t.flags.halt ≠ halted.flags.halt := ⟨⟨_, rfl, by decide⟩, _, rfl, by decide⟩

theorem witness_WhatInstructionsMayWrite :
    (∃ t, exec (.strRegRam .a 0x1000) (withRegs [(.a, 1)]) = .next t ∧ memRead 0x1000 t ≠ memRead 0x1000 (withRegs [(.a, 1)])) ∧
      (∃ t, exec (.pshReg .a) State.reset = .next t ∧ ¬ SameStack State.reset t) ∧
      (∃ t, exec (.outRegImm8 .a 0x20) (withRegs [(.a, 1)]) = .next t ∧
        portRead 0x20 t ≠ portRead 0x20 (withRegs [(.a, 1)])) ∧
      ∃ t, exec (.jmpImm16 0x1234) State.reset = .next t ∧ ¬ SamePc State.reset t :=
  ⟨⟨_, rfl, by decide +kernel⟩, ⟨_, rfl, fun h => absurd h.1 (by decide +kernel)⟩, ⟨_, rfl, by decide +kernel⟩,
    _, rfl, fun h => absurd h.1 (by decide +kernel)⟩

end Sys2Proof.Tests
end

/-! SUPPORT. The state family: what an instruction can do to the state, said once as a relation with one case per kind of
write, and from it the frame of every instruction and the invariant of every step (spec 10_state.md). -/

section

namespace Sys2Proof.Machine

/-! ### Register pairs and the reset state -/

/-- `(h << 8) | l` on numbers (10_state.md R22). -/
theorem toNat_append_byte (h l : Byte) : (h ++ l).toNat = 256 * h.toNat + l.toNat := by
  rw [BitVec.toNat_append, ← Nat.shiftLeft_add_eq_or_of_lt l.isLt, Nat.shiftLeft_eq]
  omega

/-- Every register of the reset state is 0 (10_state.md R39). -/
@[simp] theorem readReg_reset (r : Reg) : readReg r State.reset = 0 := by cases r <;> rfl

/-! ### What an instruction can do -/

/-- The mnemonics of the jumps (43_control.md R170). -/
def jumpOps : List Op := [.jmp, .jmc, .jme, .jmf, .jmn, .jms, .jmz]

/-- Everything an instruction with mnemonic `o` can make of the state `s`: one constructor for each kind of write. -/
inductive Effect (s : State) : Op → State → Prop
  /-- Registers and flags alone; F.H is not written. -/
  | compute (o : Op) (g : Regs) (f : Flags) (hH : f.halt = s.flags.halt) : Effect s o ((s.setRegs g).setFlags f)
  | halt : Effect s .hlt (haltOp s)
  | store (a : Word) (v : Byte) : Effect s .str (memWrite a v s)
  | out (p v : Byte) : Effect s .portOut (portWrite p v s)
  | jump (o : Op) (target : Word) (ho : o ∈ jumpOps) : Effect s o (jumpTo target s)
  | push (v : Byte) : Effect s .psh (push v s)
  | pop (g : Regs) : Effect s .pop ((pop s).2.setRegs g)
  | call (target : Word) : Effect s .cal (jumpTo target (pushWord (nextPc s) s))
  | ret (target : Word) : Effect s .ret (jumpTo target (pop (pop s).2).2)
  | interrupt (p : Byte) : Effect s .int (enterHandler (nextPc s) p s)
  /-- IRT sets F.I; F.H is not written. -/
  | interruptReturn (target : Word) (g : Regs) (f : Flags) (hI : f.interrupt = true) (hH : f.halt = s.flags.halt) :
      Effect s .irt (jumpTo target (((pop (pop (pop s).2).2).2.setRegs g).setFlags f))

/-- A conditional jump writes the PC or nothing (43_control.md R170). -/
theorem Effect.jumpIf {o : Op} (ho : o ∈ jumpOps) (taken : Bool) (target : Target) (s : State) :
    Effect s o (jumpIf taken target s) := by
  cases taken with
  | true => exact .jump o (target16 target s) ho
  | false => exact .compute o s.regs s.flags rfl

/-- An optional register write touches the register file alone. -/
theorem writeRegOpt_eq_setRegs (r : Reg) (v : Option Byte) (s : State) : ∃ g, writeRegOpt r v s = s.setRegs g := by
  rcases writeRegOpt_cases r v s with ⟨-, e⟩ | ⟨x, -, e⟩
  · exact ⟨s.regs, e⟩
  · exact ⟨s.regs.set r x, e⟩

theorem Effect.popOp (r : Reg) (s : State) : Effect s .pop (popOp r s) := by
  obtain ⟨g, e⟩ := writeRegOpt_eq_setRegs r (Machine.pop s).1 (Machine.pop s).2
  rw [Machine.popOp, e]
  exact .pop g

theorem Effect.returnFromHandler (s : State) : Effect s .irt (returnFromHandler s) := by
  obtain ⟨g, e⟩ := writeRegOpt_eq_setRegs .i (Machine.pop (popWord s).2).1 (Machine.pop (popWord s).2).2
  rw [returnFromHandler_spec, e]
  exact .interruptReturn _ g _ rfl (by simp [popWord, pop_flags])

/-- Every instruction answers a next state, and does no more than the effect of its mnemonic (40_execution_cycle.md R105). -/
theorem exec_effect (i : Instr) (s : State) : ∃ t, exec i s = .next t ∧ Effect s i.parts.1 t := by
  cases i with
  | nop => exact ⟨_, rfl, .compute _ s.regs s.flags rfl⟩
  | adcReg | adcRegImm8 | adcRegRam | adcRamreg | addReg | addRegImm8 | addRegRam | addRamreg
  | sbbReg | sbbRegImm8 | sbbRegRam | sbbRamreg | subReg | subRegImm8 | subRegRam | subRamreg
  | andReg | andRegImm8 | andRegRam | andRamreg | orReg | orRegImm8 | orRegRam | orRamreg
  | xorReg | xorRegImm8 | xorRegRam | xorRamreg | incReg | decReg | notReg | shlReg | shrReg =>
    exact ⟨_, rfl, .compute _ (s.regs.set _ _) _ rfl⟩
  | movReg | movRegImm8 | lodRegRam | lodRamreg | inReg | inRegImm8 =>
    exact ⟨_, rfl, .compute _ (s.regs.set _ _) s.flags rfl⟩
  | cmpReg | cmpRegImm8 | cmpRegRam | cmpRamreg
  | clc | cle | cli | cln | cls | clz | clf | stc | ste | stf | sti | stn | sts | stz =>
    exact ⟨_, rfl, .compute _ s.regs _ rfl⟩
  | hlt => exact ⟨_, rfl, .halt⟩
  | strRegRam | strRamreg => exact ⟨_, rfl, .store _ _⟩
  | outReg | outRegImm8 => exact ⟨_, rfl, .out _ _⟩
  | jmpImm16 | jmpReg16 => exact ⟨_, rfl, .jump _ _ (by simp [Instr.parts, jumpOps])⟩
  | jmcImm16 | jmcReg16 | jmeImm16 | jmeReg16 | jmfImm16 | jmfReg16 | jmnImm16 | jmnReg16
  | jmsImm16 | jmsReg16 | jmzImm16 | jmzReg16 =>
    exact ⟨_, rfl, .jumpIf (by simp [Instr.parts, jumpOps]) _ _ s⟩
  | calImm16 | calReg16 => exact ⟨_, rfl, .call _⟩
  | ret => exact ⟨_, rfl, .ret _⟩
  | pshReg | pshImm8 => exact ⟨_, rfl, .push _⟩
  | popReg r1 => exact ⟨_, rfl, .popOp r1 s⟩
  | intImm8 v1 => exact ⟨_, rfl, .interrupt v1⟩
  | irt => exact ⟨_, rfl, .returnFromHandler s⟩

theorem effect_of_exec {i : Instr} {s t : State} (h : exec i s = .next t) : Effect s i.parts.1 t := by
  obtain ⟨u, hu, e⟩ := exec_effect i s
  obtain rfl : u = t := by simpa [hu] using h
  exact e

/-! ### The frame of an effect -/

section Effect

variable {s t : State} {o : Op}

/-- No instruction writes the bus fabric or the instruction register (60_exceptions.md R271). -/
theorem Effect.sameFabric (h : Effect s o t) : SameFabric s t := by
  cases h with
  | compute | halt | store | out | jump | push | pop | ret | interrupt | interruptReturn => simp [SameFabric, haltOp]
  | call => simp [SameFabric, pushWord]

theorem Effect.mem_eq_or (h : Effect s o t) : t.mem = s.mem ∨ o ∈ [Op.str, .psh, .cal, .int] := by
  cases h with
  | compute | halt | out | jump | pop | ret | interruptReturn => left; simp [haltOp]
  | store | push | call | interrupt => right; decide

theorem Effect.sameStack_or (h : Effect s o t) : SameStack s t ∨ o ∈ [Op.psh, .pop, .cal, .ret, .int, .irt] := by
  cases h with
  | compute | halt | store | out | jump => left; exact ⟨rfl, rfl⟩
  | push | pop | call | ret | interrupt | interruptReturn => right; decide

theorem Effect.portData_eq_or (h : Effect s o t) : t.portData = s.portData ∨ o = .portOut := by
  cases h with
  | compute | halt | store | jump | push | pop | ret | interrupt | interruptReturn => left; simp [haltOp]
  | call => left; simp [pushWord]
  | out => right; rfl

theorem Effect.samePc_or (h : Effect s o t) : SamePc s t ∨ o ∈ jumpOps ++ [.cal, .ret, .int, .irt] := by
  cases h with
  | compute | halt | store | out | push | pop => left; simp [SamePc, haltOp]
  | jump _ _ ho => right; exact List.mem_append_left _ ho
  | call | ret | interrupt | interruptReturn => right; decide

/-! ### What an effect keeps of the invariant -/

/-- A handler is entered with F.H clear (46_system.md R222, 60_exceptions.md R277). -/
theorem enterHandler_halt (ret : Word) (p : Byte) (s : State) : (enterHandler ret p s).flags.halt = false := by
  obtain ⟨-, -, -, hflags, -⟩ := enterHandler_spec ret p s Config.params
  rw [hflags]

theorem Effect.mem_wf (h : Effect s o t) (hs : s.mem.wf = true) : t.mem.wf = true := by
  cases h with
  | compute | halt | out | jump | pop | ret | interruptReturn => simpa [haltOp] using hs
  | store a v => exact memWrite_wf a v s hs
  | push v => exact push_mem_wf v s _ hs
  | call => exact push_mem_wf _ _ _ (push_mem_wf _ _ _ hs)
  | interrupt p => exact enterHandler_mem_wf _ p s _ hs

theorem Effect.portData_wf (h : Effect s o t) (hs : s.portData.wfData = true) : t.portData.wfData = true := by
  rcases h.portData_eq_or with e | rfl
  · rwa [e]
  · cases h with
    | compute => exact hs
    | out p v => exact portWrite_wf p v s hs
    | jump _ _ ho => exact absurd ho (by decide)

/-- The full latch goes with pointer 0 (10_state.md R29). -/
theorem Effect.fullWrapped (h : Effect s o t) (hs : s.full = true → s.sp = 0) : t.full = true → t.sp = 0 := by
  cases h with
  | compute | halt | store | out | jump => exact hs
  | push v => exact push_fullWrapped v s _ hs
  | pop => exact pop_fullWrapped s _ hs
  | call => exact push_fullWrapped _ _ _ (push_fullWrapped _ _ _ hs)
  | ret => exact pop_fullWrapped _ _ (pop_fullWrapped s _ hs)
  | interrupt p => exact enterHandler_fullWrapped _ p s _ hs
  | interruptReturn => exact pop_fullWrapped _ _ (pop_fullWrapped _ _ (pop_fullWrapped s _ hs))

/-- An instruction that runs, so with F.H clear, leaves a CPU that an interrupt can wake: HLT is the one that sets F.H, and it
sets F.I with it (46_system.md R221). -/
theorem Effect.haltCanWake (h : Effect s o t) (hs : s.flags.halt = false) : t.flags.halt = true → t.flags.interrupt = true := by
  cases h with
  | compute _ _ _ hH => simp [hH, hs]
  | halt => simp [haltOp]
  | store | out | jump => simp [hs]
  | push | call => simp [pushWord, push_flags, hs]
  | pop | ret => simp [pop_flags, hs]
  | interrupt => simp [enterHandler_halt]
  | interruptReturn _ _ _ hI => simp [hI]

end Effect

/-! ### The invariant inside a tick -/

/-- What holds of `State.Inv` at every point of a tick, after each of its parts: all but the jump marker, which Execute sets,
and the two fields on the request, which the IOD's half sets again. -/
structure State.MidTick (s : State) : Prop where
  memWf : s.mem.wf = true
  portDataWf : s.portData.wfData = true
  portOwnerWf : s.portOwner.wfOwner = true
  fullWrapped : s.full = true → s.sp = 0
  queueBounded : s.irqQueue.length ≤ Config.irqQueueCapacity
  haltCanWake : s.flags.halt = true → s.flags.interrupt = true
  readyIffManaging : s.intReady = true ↔ s.cpuState = .interruptManagement

variable {s t : State}

theorem State.Inv.midTick (h : s.Inv) : s.MidTick where
  __ := h

/-- The IOD's half makes the invariant whole: the request stands after it exactly where a record is queued and the CPU is not
in interrupt management (60_exceptions.md R270, R272). -/
theorem State.MidTick.iodTick_inv (h : s.MidTick) (hj : s.jmp = false) : (iodTick s).Inv where
  memWf := by simpa using h.memWf
  portDataWf := by simpa using h.portDataWf
  portOwnerWf := by simpa using h.portOwnerWf
  fullWrapped := by simpa using h.fullWrapped
  jmpClear := by simpa using hj
  queueBounded := by
    have hq := h.queueBounded
    rcases iodTick_cases s with ⟨-, e⟩ | ⟨-, -, e⟩ | ⟨r, rest, -, e', e⟩
    · simpa [e] using hq
    · simpa [e] using hq
    · rw [e', List.length_cons] at hq
      rw [e]
      exact Nat.le_of_succ_le hq
  haltCanWake := by simpa using h.haltCanWake
  readyIffManaging := by simpa using h.readyIffManaging
  managingMeansDropped := by
    rw [iodTick_cpuState, ← h.readyIffManaging]
    rcases iodTick_cases s with ⟨hr, -⟩ | ⟨-, -, e⟩ | ⟨r, rest, -, -, e⟩
    · simp [hr]
    · simp [e]
    · simp [e]
  requestMeansQueued := by
    rcases iodTick_cases s with ⟨-, e⟩ | ⟨-, -, e⟩ | ⟨r, rest, -, -, e⟩ <;> simp [e]

theorem State.MidTick.clearJmp (h : s.MidTick) : (clearJmp s).MidTick where
  __ := h

theorem State.MidTick.fetchInstr (h : s.MidTick) : (fetchInstr s).MidTick where
  __ := h

theorem State.MidTick.advancePc (h : s.MidTick) : (advancePc s).MidTick := by
  unfold Machine.advancePc
  split
  · exact h
  · exact { h with }

/-- Entry raises `int_ready` and the CPU state together (60_exceptions.md R275). -/
theorem State.MidTick.enterManagement (h : s.MidTick) : (enterManagement s).MidTick where
  __ := h
  readyIffManaging := by simp [Machine.enterManagement]

theorem State.MidTick.enterHandler (h : s.MidTick) (ret : Word) (p : Byte) : (enterHandler ret p s).MidTick where
  memWf := enterHandler_mem_wf ret p s Config.params h.memWf
  portDataWf := by simpa using h.portDataWf
  portOwnerWf := by simpa using h.portOwnerWf
  fullWrapped := enterHandler_fullWrapped ret p s Config.params h.fullWrapped
  queueBounded := by simpa using h.queueBounded
  haltCanWake := by simp [enterHandler_halt]
  readyIffManaging := by simpa using h.readyIffManaging

/-- The prologue drops `int_ready` and the CPU state together (60_exceptions.md R277). -/
theorem State.MidTick.interruptService (h : s.MidTick) : (interruptService s).MidTick where
  __ := h.enterHandler s.pc (s.addrBus.extractLsb' 0 8)
  readyIffManaging := by simp [interruptService_eq]

/-- Execute keeps the invariant of a tick where the CPU is not halted, the only place where it runs (40_execution_cycle.md
R101). -/
theorem State.MidTick.exec {i : Instr} (h : s.MidTick) (hH : s.flags.halt = false) (e : exec i s = .next t) : t.MidTick := by
  have eff := effect_of_exec e
  obtain ⟨hcpu, -, -, hready, -, -, -, hqueue, howner⟩ := eff.sameFabric
  exact {
    memWf := eff.mem_wf h.memWf
    portDataWf := eff.portData_wf h.portDataWf
    portOwnerWf := howner ▸ h.portOwnerWf
    fullWrapped := eff.fullWrapped h.fullWrapped
    queueBounded := hqueue ▸ h.queueBounded
    haltCanWake := eff.haltCanWake hH
    readyIffManaging := by rw [hready, hcpu]; exact h.readyIffManaging }

/-- One word run: an unmatched word is fetched and passed over (30_encoding.md R84). -/
theorem State.MidTick.runInstr (h : s.MidTick) (hH : s.flags.halt = false) (e : runInstr s = .next t) : t.MidTick := by
  rcases runInstr_cases s Config.params Machine.exec with ⟨i, -, e'⟩ | ⟨-, -, e'⟩
  · rw [e', onNext_eq_next] at e
    obtain ⟨u, hu, rfl⟩ := e
    exact (h.fetchInstr.exec hH hu).advancePc
  · obtain rfl : Machine.advancePc (Machine.fetchInstr s) = t := by simpa [e'] using e
    exact h.fetchInstr.advancePc

/-- Whatever the CPU's half does, it ends by clearing the jump marker (40_execution_cycle.md R106). -/
theorem State.MidTick.cpuTick (h : s.MidTick) (e : cpuTick s = .next t) : t.MidTick ∧ t.jmp = false := by
  suffices ∃ u : State, u.MidTick ∧ Machine.clearJmp u = t by
    obtain ⟨u, hu, rfl⟩ := this
    exact ⟨hu.clearJmp, rfl⟩
  rcases cpuTick_cases s Config.params Machine.exec with
    ⟨-, -, -, e'⟩ | ⟨-, -, -, e'⟩ | ⟨-, -, hH, e'⟩ | ⟨-, -, e'⟩ | ⟨-, -, e'⟩ <;> rw [e'] at e
  · exact ⟨_, h.enterManagement, by simpa using e⟩
  · exact ⟨s, h, by simpa using e⟩
  · obtain ⟨u, hu, eu⟩ := onNext_eq_next.1 e
    exact ⟨u, h.runInstr hH hu, eu⟩
  · exact ⟨s, h, by simpa using e⟩
  · exact ⟨_, h.interruptService, by simpa using e⟩

/-- A step leads from what a tick keeps to the whole invariant. -/
theorem State.MidTick.step_inv (h : s.MidTick) (e : step s = .next t) : t.Inv := by
  obtain ⟨u, hu, rfl⟩ := step_eq_next.1 e
  obtain ⟨hmid, hjmp⟩ := h.cpuTick hu
  exact hmid.iodTick_inv hjmp

/-! ### The obligations -/

/-- Settles O55: the CPU's half keeps what a tick keeps, the IOD's half restores the rest. -/
theorem stepKeepsInvariant : Obligations.StepKeepsInvariant :=
  fun _ _ hs e => hs.midTick.step_inv e

/-- Settles O58, clause by clause from the effect of the instruction. -/
theorem whatInstructionsMayWrite : Obligations.WhatInstructionsMayWrite := by
  intro i s t e
  have eff := effect_of_exec e
  refine ⟨eff.sameFabric, fun hmem => ?_, eff.sameStack_or.resolve_left, fun hport => ?_, eff.samePc_or.resolve_left⟩
  · exact eff.mem_eq_or.resolve_left fun heq => hmem fun a => by rw [memRead, memRead, heq]
  · exact eff.portData_eq_or.resolve_left fun heq => hport fun p => by rw [portRead, portRead, heq]

/-- Settles O53: each value is read off the definition, the registers one by one. -/
theorem resetStateValues : Obligations.ResetStateValues :=
  ⟨readReg_reset, rfl, rfl, rfl, rfl, rfl, rfl, rfl, rfl, rfl, rfl, rfl, rfl, fun _ => rfl, rfl, fun _ => rfl,
    fun _ => rfl⟩

/-- Settles O54. -/
theorem resetMeetsInvariant : Obligations.ResetMeetsInvariant where
  memWf := rfl
  portDataWf := rfl
  portOwnerWf := rfl
  fullWrapped := fun _ => rfl
  jmpClear := rfl
  queueBounded := Nat.zero_le _
  haltCanWake := fun _ => rfl
  readyIffManaging := by decide
  managingMeansDropped := fun _ => rfl
  requestMeansQueued := by decide

/-- Settles O59. -/
theorem pairIsHighByteFirst : Obligations.PairIsHighByteFirst :=
  fun h l s => toNat_append_byte (readReg h s) (readReg l s)

end Sys2Proof.Machine

end

/-! SUPPORT. The memory family: one byte written, everything else as it was (spec 20_memory.md). -/

section

namespace Sys2Proof.Machine

/-- `MemWrite` replaces the memory and no other part of the state (20_memory.md R52). -/
theorem memWrite_eq_setMem (a : Word) (v : Byte) (s : State) : memWrite a v s = s.setMem (memWrite a v s).mem := rfl

/-- Settles O42: the read laws of a write for the byte and for the other addresses, then the state's frame and the table's law. -/
theorem memoryWriteIsExact : Obligations.MemoryWriteIsExact := by
  intro a v s
  refine ⟨?written, ?others, ?frame, ?canonicalForm⟩
  case written => exact memRead_memWrite_same a v s
  case others => exact fun x hx => memRead_memWrite_other hx v s
  case frame => exact memWrite_eq_setMem a v s
  case canonicalForm => exact memWrite_wf a v s

end Sys2Proof.Machine

end

/-! SUPPORT. The encoding family: an instruction is its opcode, its mode and the operands a word holds, and both decoding to it and
agreeing with its word under its mask say just that; an unmatched word is passed over (spec 30_encoding.md). -/

section

namespace Sys2Proof

/-! ### What a form's operands say of a word -/

/-- Every instruction is well-formed while `HAS_FLAG_OPS` is true (47_flag_ops.md R249). -/
theorem wellFormed_eq_true (i : Instr) : WellFormed i = true := rfl

/-- The operands `x` of a form are what a word with the operand fields `f` holds in the places the form reads (30_encoding.md
R77). -/
def OperandBits.HeldBy (f : OperandFields) : OperandBits → Prop
  | .none => True
  | .one r1 => f.r1 = r1
  | .two r1 r2 => f.r1 = r1 ∧ f.r2 = r2
  | .three r1 r2 r3 => f.r1 = r1 ∧ f.r2 = r2 ∧ f.r3 = r3
  | .regByte r1 v1 => f.r1 = r1 ∧ f.v1 = v1
  | .regAddr r1 vx => f.r1 = r1 ∧ f.vx = vx
  | .byte v1 => f.v1 = v1
  | .addr vx => f.vx = vx

/-- A word packed from operands holds them. -/
theorem OperandBits.heldBy_readBack (x : OperandBits) (op : BitVec Config.opcodeBits) (mode : BitVec Config.modeBits) :
    x.HeldBy (x.readBack op mode) := by
  cases x <;> simp [HeldBy, operandFields, OperandBits.fields, extract_append_word]

/-- An instruction's own word holds its operands. -/
theorem Instr.heldBy_ownFields (i : Instr) : i.parts.2.2.HeldBy i.ownFields :=
  i.parts.2.2.heldBy_readBack _ _

/-! ### The table of forms, read forwards and backwards -/

/-- An instruction is the form of its opcode and mode on all operand fields that hold its operands. -/
theorem formOf_of_heldBy {i : Instr} {f : OperandFields} (h : i.parts.2.2.HeldBy f) :
    formOf i.parts.1 i.parts.2.1 f = some i := by
  cases i with
  | nop | hlt | irt | ret | clc | cle | cli | cln | cls | clz | clf | stc | ste | stf | sti | stn | sts | stz => rfl
  | decReg | incReg | notReg | popReg | pshReg | shlReg | shrReg | intImm8 | pshImm8
  | calImm16 | jmcImm16 | jmeImm16 | jmfImm16 | jmnImm16 | jmpImm16 | jmsImm16 | jmzImm16 =>
    obtain rfl := h
    rfl
  | adcReg | addReg | andReg | cmpReg | orReg | sbbReg | subReg | xorReg | inReg | outReg | movReg
  | calReg16 | jmcReg16 | jmeReg16 | jmfReg16 | jmnReg16 | jmpReg16 | jmsReg16 | jmzReg16
  | adcRegImm8 | addRegImm8 | andRegImm8 | cmpRegImm8 | orRegImm8 | sbbRegImm8 | subRegImm8 | xorRegImm8
  | inRegImm8 | outRegImm8 | movRegImm8
  | adcRegRam | addRegRam | andRegRam | cmpRegRam | orRegRam | sbbRegRam | subRegRam | xorRegRam | lodRegRam | strRegRam =>
    obtain ⟨rfl, rfl⟩ := h
    rfl
  | adcRamreg | addRamreg | andRamreg | cmpRamreg | orRamreg | sbbRamreg | subRamreg | xorRamreg | lodRamreg | strRamreg =>
    obtain ⟨rfl, rfl, rfl⟩ := h
    rfl

section families

variable {m : Mode} {f : OperandFields} {i : Instr}

theorem aluForms_eq_some_iff {reg imm ram ramreg} :
    aluForms reg imm ram ramreg m f = some i ↔
      (m = .reg ∧ reg f.r1 f.r2 = i) ∨ (m = .regImm8 ∧ imm f.r1 f.v1 = i) ∨ (m = .regRam ∧ ram f.r1 f.vx = i) ∨
        (m = .ramreg ∧ ramreg f.r1 f.r2 f.r3 = i) := by
  cases m <;> simp [aluForms]

theorem moveForms_eq_some_iff {reg imm} :
    moveForms reg imm m f = some i ↔ (m = .reg ∧ reg f.r1 f.r2 = i) ∨ (m = .regImm8 ∧ imm f.r1 f.v1 = i) := by
  cases m <;> simp [moveForms]

theorem memoryForms_eq_some_iff {ram ramreg} :
    memoryForms ram ramreg m f = some i ↔ (m = .regRam ∧ ram f.r1 f.vx = i) ∨ (m = .ramreg ∧ ramreg f.r1 f.r2 f.r3 = i) := by
  cases m <;> simp [memoryForms]

theorem jumpForms_eq_some_iff {imm16 reg16} :
    jumpForms imm16 reg16 m f = some i ↔ (m = .imm16 ∧ imm16 f.vx = i) ∨ (m = .reg16 ∧ reg16 f.r1 f.r2 = i) := by
  cases m <;> simp [jumpForms]

theorem oneRegForm_eq_some_iff {reg} : oneRegForm reg m f = some i ↔ m = .reg ∧ reg f.r1 = i := by
  cases m <;> simp [oneRegForm]

theorem oneByteForm_eq_some_iff {imm} : oneByteForm imm m f = some i ↔ m = .imm8 ∧ imm f.v1 = i := by
  cases m <;> simp [oneByteForm]

theorem pushForms_eq_some_iff {reg imm} :
    pushForms reg imm m f = some i ↔ (m = .reg ∧ reg f.r1 = i) ∨ (m = .imm8 ∧ imm f.v1 = i) := by
  cases m <;> simp [pushForms]

theorem bareForm_eq_some_iff {j : Instr} : bareForm j m = some i ↔ m = .none ∧ j = i := by
  cases m <;> simp [bareForm]

end families

/-- The form of an opcode and a mode has that opcode and mode, and the operand fields hold its operands (30_encoding.md R77,
R79). -/
theorem parts_of_formOf {o : Op} {m : Mode} {f : OperandFields} {i : Instr} (h : formOf o m f = some i) :
    i.parts.1 = o ∧ i.parts.2.1 = m ∧ i.parts.2.2.HeldBy f := by
  cases o with
  | adc | add | and | cmp | or | sbb | sub | xor =>
    obtain ⟨rfl, rfl⟩ | ⟨rfl, rfl⟩ | ⟨rfl, rfl⟩ | ⟨rfl, rfl⟩ := aluForms_eq_some_iff.1 h
    · exact ⟨rfl, rfl, rfl, rfl⟩
    · exact ⟨rfl, rfl, rfl, rfl⟩
    · exact ⟨rfl, rfl, rfl, rfl⟩
    · exact ⟨rfl, rfl, rfl, rfl, rfl⟩
  | portIn | portOut | mov =>
    obtain ⟨rfl, rfl⟩ | ⟨rfl, rfl⟩ := moveForms_eq_some_iff.1 h <;> exact ⟨rfl, rfl, rfl, rfl⟩
  | lod | str =>
    obtain ⟨rfl, rfl⟩ | ⟨rfl, rfl⟩ := memoryForms_eq_some_iff.1 h
    · exact ⟨rfl, rfl, rfl, rfl⟩
    · exact ⟨rfl, rfl, rfl, rfl, rfl⟩
  | cal | jmc | jme | jmf | jmn | jmp | jms | jmz =>
    obtain ⟨rfl, rfl⟩ | ⟨rfl, rfl⟩ := jumpForms_eq_some_iff.1 h
    · exact ⟨rfl, rfl, rfl⟩
    · exact ⟨rfl, rfl, rfl, rfl⟩
  | dec | inc | not | pop | shl | shr =>
    obtain ⟨rfl, rfl⟩ := oneRegForm_eq_some_iff.1 h
    exact ⟨rfl, rfl, rfl⟩
  | int =>
    obtain ⟨rfl, rfl⟩ := oneByteForm_eq_some_iff.1 h
    exact ⟨rfl, rfl, rfl⟩
  | psh =>
    obtain ⟨rfl, rfl⟩ | ⟨rfl, rfl⟩ := pushForms_eq_some_iff.1 h <;> exact ⟨rfl, rfl, rfl⟩
  | nop | hlt | irt | ret | clc | cle | cli | cln | cls | clz | clf | stc | ste | stf | sti | stn | sts | stz =>
    obtain ⟨rfl, rfl⟩ := bareForm_eq_some_iff.1 h
    exact ⟨rfl, rfl, trivial⟩

/-- The decoder without its search: a word decodes to the instruction whose opcode and mode are in its selection fields and whose
operands are in its operand fields (30_encoding.md R83). -/
theorem decode_eq_form_iff {w : Dword} {i : Instr} :
    decode w = .form i ↔
      opcodeField w = opcodeOf i.parts.1 ∧ modeField w = modeCode i.parts.2.1 ∧ i.parts.2.2.HeldBy (operandFields w) := by
  constructor
  · intro h
    unfold decode at h
    split at h
    · cases h
    · cases h
    next o m ho hm =>
      rw [Config.params_layout] at ho hm
      have hform : formOf o m (operandFields w) = some i := by
        cases hf : formOf o m (operandFields w) with
        | none => simp [decodedForm, hf] at h
        | some j => simpa [decodedForm, hf, wellFormed_eq_true] using h
      obtain ⟨rfl, rfl, hheld⟩ := parts_of_formOf hform
      exact ⟨opOf_eq_some.1 ho, modeOf_eq_some.1 hm, hheld⟩
  · rintro ⟨ho, hm, hheld⟩
    rw [decode_of_fields ho hm, formOf_of_heldBy hheld]
    rfl

/-! ### The bits a form reads -/

/-- What a mask leaves of a word, field by field. -/
def WordFields.keptOf (w : Dword) (mask : WordFields) : WordFields where
  opcode := opcodeField w &&& mask.opcode
  mode := modeField w &&& mask.mode
  r1 := r1Field w &&& mask.r1
  r2 := r2Field w &&& mask.r2
  r3 := r3Field w &&& mask.r3
  v1 := v1Field w &&& mask.v1
  v2 := v2Field w &&& mask.v2

/-- A mask with one field leaves that field of the word at its place. -/
theorem and_placeField {n : Nat} (w : Dword) (lo : Nat) (v : BitVec n) :
    w &&& placeField lo v = placeField lo (w.extractLsb' lo n &&& v) := by
  apply BitVec.eq_of_getLsbD_eq
  intro k hk
  simp only [BitVec.getLsbD_and, placeField_getLsbD, BitVec.getLsbD_extractLsb']
  by_cases hlo : lo ≤ k
  · by_cases hn : k - lo < n
    · simp [hk, hlo, hn]
    · simp [hn, BitVec.getLsbD_of_ge v (k - lo) (Nat.le_of_not_lt hn)]
  · simp [hlo]

/-- A mask packed from fields acts on each field by itself, also where R3 and V1 share bits (30_encoding.md R71). -/
theorem and_packWord (w : Dword) (mask : WordFields) : w &&& packWord mask = packWord (mask.keptOf w) := by
  simp only [packWord, BitVec.and_or_distrib_left, and_placeField]
  rfl

/-- Packed fields can be read back, where R3 and V1 are not both in use (30_encoding.md R71). -/
theorem packWord_inj {f g : WordFields} (h : (f.r3 = 0 ∧ g.r3 = 0) ∨ (f.v1 = 0 ∧ g.v1 = 0)) :
    packWord f = packWord g ↔ f = g := by
  refine ⟨fun e => ?_, congrArg (packWord ·)⟩
  have hop : f.opcode = g.opcode := by simpa using congrArg (opcodeField ·) e
  have hmode : f.mode = g.mode := by simpa using congrArg (modeField ·) e
  have h1 : f.r1 = g.r1 := by simpa using congrArg (r1Field ·) e
  have h2 : f.r2 = g.r2 := by simpa using congrArg (r2Field ·) e
  have hv2 : f.v2 = g.v2 := by simpa using congrArg (v2Field ·) e
  have h3v1 : f.r3 = g.r3 ∧ f.v1 = g.v1 := by
    obtain ⟨hf, hg⟩ | ⟨hf, hg⟩ := h
    · exact ⟨hf.trans hg.symm, by simpa [hf, hg] using congrArg (v1Field ·) e⟩
    · exact ⟨by simpa [hf, hg] using congrArg (r3Field ·) e, hf.trans hg.symm⟩
  obtain ⟨h3, hv1⟩ := h3v1
  cases f
  cases g
  exact (WordFields.mk.injEq ..).mpr ⟨hop, hmode, h1, h2, h3, hv1, hv2⟩

theorem regOf_eq_iff {c : BitVec Config.regBits} {r : Reg} : regOf c = r ↔ c = regCode r :=
  ⟨fun h => by rw [← h, regCode_regOf], fun h => by rw [h, regOf_regCode]⟩

/-- `vx` is V1 and V2 together (30_encoding.md R75). -/
theorem vxField_eq_iff {w : Dword} {vx : Word} :
    vxField w = vx ↔ v1Field w = vx.extractLsb' 8 8 ∧ v2Field w = vx.extractLsb' 0 8 := by
  constructor
  · rintro rfl
    exact ⟨BitVec.extractLsb'_append_eq_left.symm, BitVec.extractLsb'_append_eq_right.symm⟩
  · rintro ⟨h1, h2⟩
    rw [vxField, h1, h2, extract_append_word]

/-- A word masked to the fields that an operand shape reads is the word packed from operands exactly where the word holds the
selection fields and these operands. -/
theorem OperandBits.keptOf_readFields_iff (x : OperandBits) {w : Dword} {op : BitVec Config.opcodeBits}
    {mode : BitVec Config.modeBits} :
    x.readFields.keptOf w = x.fields op mode regCode ↔
      opcodeField w = op ∧ modeField w = mode ∧ x.HeldBy (operandFields w) := by
  cases x <;>
    simp [-BitVec.reduceAllOnes, readFields, OperandBits.fields, WordFields.keptOf, HeldBy, operandFields, regOf_eq_iff,
      vxField_eq_iff]

/-- No operand shape reads both R3 and V1. -/
theorem OperandBits.r3_or_v1_unused (x : OperandBits) (w : Dword) (op : BitVec Config.opcodeBits)
    (mode : BitVec Config.modeBits) (code : Reg → BitVec Config.regBits) :
    ((x.readFields.keptOf w).r3 = 0 ∧ (x.fields op mode code).r3 = 0) ∨
      ((x.readFields.keptOf w).v1 = 0 ∧ (x.fields op mode code).v1 = 0) := by
  cases x with
  | three => right; simp [readFields, OperandBits.fields, WordFields.keptOf]
  | none | one | two | regByte | regAddr | byte | addr =>
    left; simp [readFields, OperandBits.fields, WordFields.keptOf]

/-- The masked word is an instruction's word where the word has the instruction's selection fields and holds
its operands (30_encoding.md R76). -/
theorem and_readMask_eq_encode_iff {w : Dword} {i : Instr} :
    w &&& i.readMask = encode i ↔
      opcodeField w = opcodeOf i.parts.1 ∧ modeField w = modeCode i.parts.2.1 ∧ i.parts.2.2.HeldBy (operandFields w) := by
  rw [Instr.readMask, encode, and_packWord, Config.params_layout, packWord_inj (i.parts.2.2.r3_or_v1_unused w _ _ _)]
  exact i.parts.2.2.keptOf_readFields_iff

end Sys2Proof

namespace Sys2Proof.Machine

/-! ### The table of supported forms -/

/-- A pair is supported where one row of the table has its mnemonic and its mode. -/
theorem mem_supportedForms {o : Op} {m : Mode} :
    (o, m) ∈ supportedForms ↔ ∃ r ∈ supportedRows, o ∈ r.1 ∧ m ∈ r.2 := by
  simp [supportedForms]

/-- The decoder's table has a form for the pairs of R79 and for no other: the two tables are compared pair by pair. -/
theorem formOf_isSome (o : Op) (m : Mode) (f : OperandFields) :
    (formOf o m f).isSome = decide (∃ r ∈ supportedRows, o ∈ r.1 ∧ m ∈ r.2) := by
  cases o <;> cases m <;> rfl

theorem formOf_isSome_iff {o : Op} {m : Mode} {f : OperandFields} :
    (formOf o m f).isSome = true ↔ (o, m) ∈ supportedForms := by
  rw [formOf_isSome, decide_eq_true_iff, mem_supportedForms]

/-- Every instruction has a supported pair: it is the form that its own word's operands give. -/
theorem parts_mem_supportedForms (i : Instr) : (i.parts.1, i.parts.2.1) ∈ supportedForms := by
  rw [← formOf_isSome_iff (f := i.ownFields), formOf_of_heldBy i.heldBy_ownFields, Option.isSome_some]

/-! ### An unmatched word -/

/-- Where the CPU will fetch, its half of the tick runs one word (40_execution_cycle.md R101). -/
theorem cpuTick_of_willFetch {s : State} (h : s.willFetch = true) : cpuTick s = onNext (runInstr s) clearJmp := by
  rcases cpuTick_cases s Config.params exec with ⟨-, hI, hreq, -⟩ | ⟨-, -, hH, -⟩ | ⟨-, -, -, e⟩ | ⟨hman, -⟩ | ⟨hman, -⟩
  · simp [State.willFetch, hI, hreq] at h
  · simp [State.willFetch, hH] at h
  · exact e
  · simp [State.willFetch, hman] at h
  · simp [State.willFetch, hman] at h

/-- An unmatched word is fetched and passed over (30_encoding.md R84). -/
theorem runInstr_of_unmatched {s : State} {why : Unmatched} (h : decode (fetch32 s.pc s) = .unmatched why) :
    runInstr s = .next (advancePc (fetchInstr s)) := by
  rcases runInstr_cases s Config.params exec with ⟨i, hform, -⟩ | ⟨-, -, e⟩
  · simp [h] at hform
  · exact e

/-- The PC advance where nothing has jumped (40_execution_cycle.md R107). -/
theorem advancePc_of_not_jmp {s : State} (h : s.jmp = false) : advancePc s = s.setPc (nextPc s) := by
  simp [advancePc, h]

/-- The state after the CPU's half has passed over the word it fetched. -/
def passedOver (s : State) : State := ((fetchInstr s).setPc (nextPc s)).setJmp false

theorem cpuTick_of_unmatched {s : State} {why : Unmatched} (hf : s.willFetch = true) (hj : s.jmp = false)
    (h : decode (fetch32 s.pc s) = .unmatched why) : cpuTick s = .next (passedOver s) := by
  rw [cpuTick_of_willFetch hf, runInstr_of_unmatched h, onNext_next, advancePc_of_not_jmp (s := fetchInstr s) hj]
  rfl

/-! ### The obligations -/

/-- Settles O1: a form's operands are held by its own word, and the table of forms reads them back. -/
theorem encodeDecodeAllForms : Obligations.EncodeDecodeAllForms :=
  fun i hw => decode_encode_of (formOf_of_heldBy i.heldBy_ownFields) hw

/-- Settles O2: decoding to `i` and agreeing with the word of `i` under the mask of `i` are the same condition on the fields. -/
theorem decodeReadsExactlyItsFields : Obligations.DecodeReadsExactlyItsFields := by
  intro w i
  rw [decode_eq_form_iff, and_readMask_eq_encode_iff]
  exact (and_iff_right (wellFormed_eq_true i)).symm

/-- Settles O3: a supported pair has a form on every word's operands, and a decoded instruction's pair is supported. -/
theorem supportedFormsAreTheTable : Obligations.SupportedFormsAreTheTable := by
  refine ⟨by decide, by decide, fun w => ⟨?supported, ?other⟩⟩
  case supported =>
    rintro ⟨o, m⟩ hp ho hm
    obtain ⟨i, hi⟩ := Option.isSome_iff_exists.1 (formOf_isSome_iff (f := operandFields w).2 hp)
    obtain ⟨rfl, rfl, hheld⟩ := parts_of_formOf hi
    exact ⟨i, decode_eq_form_iff.2 ⟨ho, hm, hheld⟩, rfl, rfl⟩
  case other =>
    intro hnone
    cases h : decode w with
    | unmatched why => exact ⟨why, rfl⟩
    | form i =>
      obtain ⟨ho, hm, -⟩ := decode_eq_form_iff.1 h
      exact absurd ⟨ho, hm⟩ (hnone _ (parts_mem_supportedForms i))

/-- Settles O6: the tick passes over the word, and each clause is read off that state. -/
theorem unmatchedWordIsNoOp : Obligations.UnmatchedWordIsNoOp := by
  intro s why hf hj h
  have hcpu := cpuTick_of_unmatched hf hj h
  refine ⟨passedOver s, hcpu, step_eq_next.2 ⟨_, hcpu, rfl⟩, ?frame⟩
  case frame => simp [passedOver, fetchInstr, nextPc, SameRegs, SameMem, SamePorts, SameStack]

/-- Settles O4: the seven words are the words of their instructions, so they are read back; the three others are evaluated. -/
theorem workedEncodingsDecode : Obligations.WorkedEncodingsDecode :=
  ⟨encodeDecodeAllForms (.movRegImm8 .a 5) rfl, encodeDecodeAllForms (.movRegImm8 .b 3) rfl,
    encodeDecodeAllForms (.addReg .a .b) rfl, encodeDecodeAllForms .hlt rfl, encodeDecodeAllForms (.jmpImm16 0x0300) rfl,
    encodeDecodeAllForms (.lodRamreg .i .j .c) rfl, encodeDecodeAllForms .nop rfl, rfl, rfl, rfl⟩

end Sys2Proof.Machine

end

/-! SUPPORT. The execution cycle family: what a tick does with a decoded word and where the CPU is halted, and what runs of pushes and
pops do to the stack, each by induction from one push or one pop (spec 40_execution_cycle.md). -/

section

namespace Sys2Proof.Machine

/-! ### One push and one pop -/

theorem push_of_full {v : Byte} {s : State} (h : s.full = true) : push v s = s.setFlags { s.flags with carry := true } := by
  rcases push_cases v s Config.params with ⟨-, e⟩ | ⟨hn, -⟩
  · exact e
  · simp [h] at hn

theorem push_of_not_full {v : Byte} {s : State} (h : s.full = false) :
    push v s = (memWrite (stackAddr s.sp) v s).setStack (s.sp + 1) (decide (s.sp + 1 = 0)) := by
  rcases push_cases v s Config.params with ⟨hf, -⟩ | ⟨-, e⟩
  · simp [h] at hf
  · exact e

theorem push_sp_of_not_full {v : Byte} {s : State} (h : s.full = false) : (push v s).sp = s.sp + 1 := by
  rw [push_of_not_full h, State.setStack_sp]

/-- The latch is set by the push that fills the last slot, as a number. -/
theorem push_full_of_not_full {v : Byte} {s : State} (h : s.full = false) :
    (push v s).full = decide (s.sp.toNat + 1 = 256) := by
  rw [push_of_not_full h, State.setStack_full, decide_eq_decide]
  bv_omega

theorem pop_of_empty {s : State} (hsp : s.sp = 0) (hfull : s.full = false) :
    pop s = (none, s.setFlags { s.flags with carry := true }) := by
  rcases pop_cases s Config.params with ⟨-, -, e⟩ | ⟨hn, -⟩
  · exact e
  · exact absurd ⟨hsp, hfull⟩ hn

theorem pop_of_not_empty {s : State} (h : ¬ (s.sp = 0 ∧ s.full = false)) :
    pop s = (some (memRead (stackAddr (s.sp - 1)) s), s.setStack (s.sp - 1) false) := by
  rcases pop_cases s Config.params with ⟨hsp, hfull, -⟩ | ⟨-, e⟩
  · exact absurd ⟨hsp, hfull⟩ h
  · exact e

/-! ### The room on the stack -/

theorem stackFree_of_full {s : State} (h : s.full = true) : stackFree s = 0 := by simp [stackFree, h]

theorem stackFree_of_not_full {s : State} (h : s.full = false) : stackFree s = 256 - s.sp.toNat := by simp [stackFree, h]

/-- There is no room exactly where the latch is set: the pointer alone never says that the stack is full (40_execution_cycle.md
R115). -/
theorem stackFree_eq_zero_iff {s : State} : stackFree s = 0 ↔ s.full = true := by
  cases h : s.full
  · simpa [stackFree_of_not_full h] using Nat.sub_ne_zero_of_lt s.sp.isLt
  · simp [stackFree_of_full h]

/-- A push takes one byte of room where there is some, and leaves none where there is none. -/
@[simp] theorem stackFree_push (v : Byte) (s : State) : stackFree (push v s) = stackFree s - 1 := by
  cases h : s.full
  case true =>
    rw [push_of_full h, stackFree_of_full h]
    exact stackFree_of_full h
  case false =>
    rw [stackFree_of_not_full h]
    by_cases hlast : s.sp.toNat + 1 = 256
    · rw [stackFree_of_full (by simp [push_full_of_not_full h, hlast])]; omega
    · rw [stackFree_of_not_full (by simp [push_full_of_not_full h, hlast]), push_sp_of_not_full h]; bv_omega

/-! ### The slots -/

@[simp] theorem pushSlot_zero (s : State) : pushSlot s 0 = stackAddr s.sp := by simp [pushSlot]

theorem stackAddr_inj {p q : Byte} : stackAddr p = stackAddr q ↔ p = q := by
  simp only [stackAddr, BitVec.add_right_inj]
  exact ⟨fun h => by bv_omega, fun h => by rw [h]⟩

/-- After a push that fits, every place lies one slot higher. -/
theorem pushSlot_push {s : State} (h : s.full = false) (v : Byte) (k : Nat) : pushSlot (push v s) k = pushSlot s (k + 1) := by
  rw [pushSlot, pushSlot, push_sp_of_not_full h, stackAddr_inj]
  bv_omega

/-- The 256 slots from the pointer on are different addresses (40_execution_cycle.md R114). -/
theorem pushSlot_inj {s : State} {j k : Nat} (hj : j < 256) (hk : k < 256) : pushSlot s j = pushSlot s k ↔ j = k := by
  rw [pushSlot, pushSlot, stackAddr_inj]
  exact ⟨fun h => by bv_omega, fun h => by rw [h]⟩

/-- What every byte of memory reads as after a push that fits. -/
theorem memRead_push {s : State} (h : s.full = false) (v : Byte) (a : Word) :
    memRead a (push v s) = if a = pushSlot s 0 then v else memRead a s := by
  simp [push_of_not_full h, memRead_memWrite]

/-! ### Runs of pushes -/

theorem stackAfterPushing_nil (s : State) : StackAfterPushing [] s s := by
  simp [StackAfterPushing, Nat.ne_of_lt s.sp.isLt]

/-- With no room, pushing changes neither memory nor the pointer nor the latch, however many bytes there are. -/
theorem stackAfterPushing_of_full {bytes : List Byte} {s t : State} (h : s.full = true) :
    StackAfterPushing bytes s t ↔ SameMem s t ∧ SameStack s t := by
  simp [StackAfterPushing, stackFree_of_full h, SameMem, SameStack, h]

/-- The latch after one push that fits and `n` more is the latch after `n + 1`: the last slot is filled by the first of them, and
then `n` is 0, or by a later one. -/
theorem latch_after_push {s : State} (h : s.full = false) (b : Byte) {n : Nat} (hn : n < 256 - s.sp.toNat) :
    ((push b s).full || decide ((push b s).sp.toNat + n = 256)) = decide (s.sp.toNat + (n + 1) = 256) := by
  rw [push_full_of_not_full h, push_sp_of_not_full h, ← Bool.decide_or, decide_eq_decide]
  bv_omega

/-- A push and then the pushes of `rest` are the pushes of one list (40_execution_cycle.md R116). -/
theorem StackAfterPushing.cons {b : Byte} {rest : List Byte} {s t : State} (h : StackAfterPushing rest (push b s) t) :
    StackAfterPushing (b :: rest) s t := by
  cases hfull : s.full
  case true =>
    have hstill : (push b s).full = true := by rw [push_of_full hfull]; exact hfull
    rw [stackAfterPushing_of_full hstill, push_of_full hfull] at h
    exact (stackAfterPushing_of_full hfull).2 h
  case false =>
    obtain ⟨hslots, hothers, hsp, hlatch⟩ := h
    have hroom : stackFree s ≠ 0 := by simp [stackFree_eq_zero_iff, hfull]
    have hn : min (b :: rest).length (stackFree s) = min rest.length (stackFree (push b s)) + 1 := by
      simp only [List.length_cons, stackFree_push]; omega
    have hmax : min rest.length (stackFree (push b s)) < 256 - s.sp.toNat := by
      rw [stackFree_push, stackFree_of_not_full hfull]; omega
    simp only [StackAfterPushing, hn]
    generalize min rest.length (stackFree (push b s)) = n at hslots hothers hsp hlatch hmax
    refine ⟨?slots, ?others, ?pointer, ?latch⟩
    case slots =>
      rintro (_ | k) hk
      · have hapart : ∀ k < n, pushSlot s 0 ≠ pushSlot (push b s) k := fun k hk => by
          rw [pushSlot_push hfull, Ne, pushSlot_inj (by omega) (by omega)]; omega
        rw [hothers _ hapart, memRead_push hfull, if_pos rfl, List.getD_cons_zero]
      · rw [← pushSlot_push hfull b k, hslots k (by omega), List.getD_cons_succ]
    case others =>
      intro a ha
      rw [hothers a fun k hk => pushSlot_push hfull b k ▸ ha (k + 1) (by omega), memRead_push hfull, if_neg (ha 0 (by omega))]
    case pointer =>
      rw [hsp, push_sp_of_not_full hfull]; bv_omega
    case latch =>
      rw [hlatch, latch_after_push hfull b hmax, hfull, Bool.false_or]

theorem stackAfterPushing_pushAll (bytes : List Byte) (s : State) : StackAfterPushing bytes s (pushAll bytes s) := by
  induction bytes generalizing s with
  | nil => exact stackAfterPushing_nil s
  | cons b rest ih => exact (ih (push b s)).cons

/-- The carry of one push, then of `n` more, is the carry of `n + 1` (40_execution_cycle.md R116). -/
theorem carryAfterPushing_push (n : Nat) (b : Byte) (s : State) :
    carryAfterPushing n (push b s) = carryAfterPushing (n + 1) s := by
  have hfull : s.full = decide (stackFree s = 0) := by simp [stackFree_eq_zero_iff]
  have hroom : (stackFree s = 0 ∨ stackFree s - 1 < n) ↔ stackFree s < n + 1 := by omega
  simp only [carryAfterPushing, push_flags, stackFree_push, hfull, Bool.or_assoc, ← Bool.decide_or, hroom]

theorem flags_pushAll (bytes : List Byte) (s : State) :
    (pushAll bytes s).flags = { s.flags with carry := carryAfterPushing bytes.length s } := by
  induction bytes generalizing s with
  | nil => simp [pushAll, carryAfterPushing]
  | cons b rest ih => rw [pushAll, ih, carryAfterPushing_push, push_flags]; rfl

/-! ### Runs of pops -/

/-- The last of `n + 1` pops taken off. -/
theorem popAll_succ_last (n : Nat) (s : State) :
    popAll (n + 1) s = ((popAll n s).1 ++ [(pop (popAll n s).2).1], (pop (popAll n s).2).2) := by
  induction n generalizing s with
  | zero => rfl
  | succ n ih => rw [popAll, ih]; rfl

/-- Pops only read memory (40_execution_cycle.md R120). -/
@[simp] theorem memRead_popAll (n : Nat) (a : Word) (s : State) : memRead a (popAll n s).2 = memRead a s := by
  induction n generalizing s with
  | zero => rfl
  | succ n ih => rw [popAll, ih, memRead_pop]

/-- Where pointer and latch are as a push on `s` leaves them, a pop gives the byte in the slot that the push filled, and restores
pointer, latch and flags. -/
theorem pop_of_sameStack_push {b : Byte} {s u : State} (hfull : s.full = false) (h : SameStack (push b s) u) :
    pop u = (some (memRead (pushSlot s 0) u), u.setStack s.sp s.full) := by
  obtain ⟨hsp, hlatch⟩ := h
  rw [push_sp_of_not_full hfull] at hsp
  rw [push_of_not_full hfull, State.setStack_full] at hlatch
  rw [pop_of_not_empty (by simp [hsp, hlatch]), hsp, BitVec.add_sub_cancel, pushSlot_zero, hfull]

/-- The byte pushed first is in its slot after all the others have been pushed. -/
theorem memRead_first_slot_pushAll {b : Byte} {rest : List Byte} {s : State} (h : s.full = false) :
    memRead (pushSlot s 0) (pushAll (b :: rest) s) = b := by
  have hroom : stackFree s ≠ 0 := by simp [stackFree_eq_zero_iff, h]
  obtain ⟨hslots, -⟩ := stackAfterPushing_pushAll (b :: rest) s
  exact hslots 0 (by simp only [List.length_cons]; omega)

/-! ### Fetching and running a word -/

/-- A byte put below a bit vector, on numbers. -/
theorem toNat_append_low {n : Nat} (w : BitVec n) (b : Byte) : (w ++ b).toNat = w.toNat * 2 ^ 8 + b.toNat := by
  rw [BitVec.toNat_append, ← Nat.shiftLeft_add_eq_or_of_lt b.isLt, Nat.shiftLeft_eq]

/-- An address offset wraps modulo 2^16 (20_memory.md R54). -/
theorem addr_add_eq_ofNat (a : Word) (k : Nat) : a + BitVec.ofNat 16 k = BitVec.ofNat 16 (a.toNat + k) := by
  simp [BitVec.ofNat_add]

/-- A supported form is fetched, run by `exec`, and the PC advanced (40_execution_cycle.md R105, R107). -/
theorem runInstr_of_form {s t : State} {i : Instr} (h : decode (fetch32 s.pc s) = .form i)
    (he : exec i (fetchInstr s) = .next t) : runInstr s = .next (advancePc t) := by
  rcases runInstr_cases s Config.params exec with ⟨j, hj, e⟩ | ⟨why, hwhy, -⟩
  · obtain rfl : i = j := by simpa [h] using hj
    rw [e, he, onNext_next]
  · simp [h] at hwhy

/-! ### The obligations -/

/-- Settles O8: the fetched word is its four bytes put together, each address an offset that wraps. -/
theorem fetchIsBigEndian : Obligations.FetchIsBigEndian := by
  intro a s
  rw [fetch32_eq]
  simp only [toNat_append_low, BitVec.ofNat_eq_ofNat, addr_add_eq_ofNat]
  ring

/-- Settles O34, by induction on the list of bytes, for memory, pointer and latch and for the flags apart. -/
theorem manyPushesFillTheStack : Obligations.ManyPushesFillTheStack :=
  fun bytes s => ⟨stackAfterPushing_pushAll bytes s, flags_pushAll bytes s⟩

/-- Settles O35, by induction on the list of bytes: the later bytes are popped first and lead back to the state of the first push,
whose byte then is the one popped. -/
theorem stackIsLastInFirstOut : Obligations.StackIsLastInFirstOut := by
  intro bytes
  induction bytes with
  | nil => exact fun s _ => ⟨rfl, rfl, rfl, rfl⟩
  | cons b rest ih =>
    intro s hfits
    rw [List.length_cons] at hfits
    have hfull : s.full = false := by
      rw [← Bool.not_eq_true, ← stackFree_eq_zero_iff]; omega
    obtain ⟨hbytes, hsp, hlatch, hflags⟩ := ih (push b s) (by rw [stackFree_push]; omega)
    have hpop := pop_of_sameStack_push hfull ⟨hsp, hlatch⟩
    have hfirst : memRead (pushSlot s 0) (popAll rest.length (pushAll rest (push b s))).2 = b := by
      rw [memRead_popAll]; exact memRead_first_slot_pushAll hfull
    rw [List.length_cons, pushAll, popAll_succ_last, hpop, hfirst, hbytes]
    exact ⟨by simp, rfl, rfl, by simp [hflags, push_flags, hfull]⟩

/-- Settles O5: the CPU's half runs the word that it fetched, and the IOD's half follows. -/
theorem stepRunsDecodedInstruction : Obligations.StepRunsDecodedInstruction := by
  intro s t i hf hi he
  have hcpu : cpuTick s = .next (clearJmp (advancePc t)) := by
    rw [cpuTick_of_willFetch hf, runInstr_of_form hi he, onNext_next]
  exact step_eq_next.2 ⟨_, hcpu, rfl⟩

/-- Settles O7: of the cases of the CPU's half, only the halted one meets the hypotheses. -/
theorem haltedTickChangesNothing : Obligations.HaltedTickChangesNothing := by
  intro s hexec hH hno
  rcases cpuTick_cases s Config.params exec with ⟨-, hI, hreq, -⟩ | ⟨-, -, -, e⟩ | ⟨-, -, hrun, -⟩ | ⟨hman, -⟩ | ⟨hman, -⟩
  · exact absurd ⟨hI, hreq⟩ hno
  · exact e
  · simp [hH] at hrun
  · simp [hexec] at hman
  · simp [hexec] at hman

/-- Settles O32. -/
theorem pushPrimitive : Obligations.PushPrimitive := fun _ _ => ⟨push_of_full, push_of_not_full⟩

/-- Settles O33. -/
theorem popPrimitive : Obligations.PopPrimitive := fun _ => ⟨pop_of_empty, pop_of_not_empty⟩

end Sys2Proof.Machine

end

/-! SUPPORT. The arithmetic family: what a word's selection fields are and which modes an opcode has, the four forms of an ALU
mnemonic as one instruction with a source operand, and the sums and differences on numbers (spec 41_alu_arith.md). -/

section

namespace Sys2Proof.Machine

/-! ### Encodings -/

/-- An instruction's word has its selection codes and is read back (30_encoding.md R71, R83). -/
theorem encodedAs_parts (i : Instr) : EncodedAs i (opcodeOf i.parts.1) (modeCode i.parts.2.1) :=
  ⟨opcodeField_encode i, modeField_encode i, encodeDecodeAllForms i (wellFormed_eq_true i)⟩

/-- The form of a mnemonic and a mode has their selection codes. -/
theorem encodedAs_of_formOf {o : Op} {m : Mode} {f : OperandFields} {i : Instr} (h : formOf o m f = some i) :
    EncodedAs i (opcodeOf o) (modeCode m) := by
  obtain ⟨rfl, rfl, -⟩ := parts_of_formOf h
  exact encodedAs_parts i

/-- An opcode has only the modes that the table of R79 lists for its mnemonic. -/
theorem onlyModes_of_supported {o : Op} {modes : List (BitVec 4)}
    (hmodes : ∀ m, (o, m) ∈ supportedForms → modeCode m ∈ modes) : OnlyModes (opcodeOf o) modes := by
  intro w ho hm
  cases h : decode w with
  | unmatched why => exact ⟨why, rfl⟩
  | form i =>
    obtain ⟨hop, hmode, -⟩ := decode_eq_form_iff.1 h
    have hi : i.parts.1 = o := by simpa [ho] using (congrArg (opOf ·) hop).symm
    have hmem := hmodes i.parts.2.1 (hi ▸ parts_mem_supportedForms i)
    exact absurd (hmode ▸ hmem) hm

/-- A mnemonic whose forms are those of INC has the mode REG alone. -/
theorem onlyModes_of_oneRegForm {o : Op} {reg : Reg → Instr} (h : formOf o = oneRegForm reg) :
    OnlyModes (opcodeOf o) [1] := by
  refine onlyModes_of_supported fun m hm => ?_
  have hf : ∀ f : OperandFields, (oneRegForm reg m f).isSome = true := fun f => h ▸ formOf_isSome_iff.2 hm
  obtain ⟨i, hi⟩ := Option.isSome_iff_exists.1 (hf (operandFields 0))
  obtain ⟨rfl, -⟩ := oneRegForm_eq_some_iff.1 hi
  exact List.mem_singleton.2 rfl

/-! ### The four forms of an ALU mnemonic -/

section aluInstr

variable (reg : Reg → Reg → Instr) (imm : Reg → Byte → Instr) (ram : Reg → Word → Instr) (ramreg : Reg → Reg → Reg → Instr)

/-- The form with destination `dst` and source operand `src` (40_execution_cycle.md R110). -/
def aluInstr (dst : Reg) : Src8 → Instr
  | .reg r2 => reg dst r2
  | .imm v1 => imm dst v1
  | .mem (.ram vx) => ram dst vx
  | .mem (.ramreg r1 r2) => ramreg r1 r2 dst

variable {reg imm ram ramreg}

/-- What holds of every source operand holds of the four forms, each with its source byte. -/
theorem everyAluForm_of_src8 {o : Op} {P : Instr → Reg → (State → Byte) → Prop}
    (hform : formOf o = aluForms reg imm ram ramreg)
    (hP : ∀ dst src, P (aluInstr reg imm ram ramreg dst src) dst (src8 src)) :
    EveryAluForm reg imm ram ramreg (opcodeOf o) P := by
  have hencoded : ∀ m f i, aluForms reg imm ram ramreg m f = some i → EncodedAs i (opcodeOf o) (modeCode m) :=
    fun m f i h => encodedAs_of_formOf (hform ▸ h)
  refine ⟨fun r1 r2 => ⟨?_, hP r1 (.reg r2)⟩, fun r1 v1 => ⟨?_, hP r1 (.imm v1)⟩,
    fun r1 vx => ⟨?_, hP r1 (.mem (.ram vx))⟩, fun r1 r2 r3 => ⟨?_, hP r3 (.mem (.ramreg r1 r2))⟩⟩
  · exact hencoded .reg ⟨r1, r2, r1, 0, 0⟩ _ rfl
  · exact hencoded .regImm8 ⟨r1, r1, r1, v1, 0⟩ _ rfl
  · exact hencoded .regRam ⟨r1, r1, r1, 0, vx⟩ _ rfl
  · exact hencoded .ramreg ⟨r1, r2, r3, 0, 0⟩ _ rfl

end aluInstr

section exec

variable (dst : Reg) (src : Src8) (s : State)

theorem exec_add : exec (aluInstr .addReg .addRegImm8 .addRegRam .addRamreg dst src) s = .next (addOp false dst src s) := by
  obtain _ | _ | _ | _ := src <;> rfl

theorem exec_adc :
    exec (aluInstr .adcReg .adcRegImm8 .adcRegRam .adcRamreg dst src) s = .next (addOp s.flags.carry dst src s) := by
  obtain _ | _ | _ | _ := src <;> rfl

theorem exec_sub : exec (aluInstr .subReg .subRegImm8 .subRegRam .subRamreg dst src) s = .next (subOp false dst src s) := by
  obtain _ | _ | _ | _ := src <;> rfl

theorem exec_sbb :
    exec (aluInstr .sbbReg .sbbRegImm8 .sbbRegRam .sbbRamreg dst src) s = .next (subOp s.flags.carry dst src s) := by
  obtain _ | _ | _ | _ := src <;> rfl

theorem exec_cmp : exec (aluInstr .cmpReg .cmpRegImm8 .cmpRegRam .cmpRamreg dst src) s = .next (cmpOp dst src s) := by
  obtain _ | _ | _ | _ := src <;> rfl

end exec

/-! ### Writing a result and its flags -/

/-- A register write followed by a flags write changes nothing else. -/
theorem writesRegAndFlags_of_exec {i : Instr} {dst : Reg} {res : State → Byte} {f : State → Flags} {result : State → Nat}
    {newFlags : State → Nat → Flags} (hexec : ∀ s, exec i s = .next ((writeReg dst (res s) s).setFlags (f s)))
    (hres : ∀ s, (res s).toNat = result s) (hflags : ∀ s, f s = newFlags s (res s).toNat) :
    WritesRegAndFlags i dst result newFlags := by
  intro s
  refine ⟨_, hexec s, ?result, ?flags, ?regs, ?frame⟩
  case result => simp [hres]
  case flags => rw [State.setFlags_flags, hflags, hres]
  case regs => exact fun r hr => readReg_writeReg_other hr (res s) s
  case frame => simp [SameMem, SamePorts, SameStack, SamePc, SameFabric]

theorem decide_eq_zero_eq_toNat (r : Byte) : decide (r = 0) = decide (r.toNat = 0) :=
  decide_eq_decide.2 BitVec.toNat_inj.symm

/-- F.Z and F.N are read from the result as a number (10_state.md R28). -/
theorem Flags.withCZN_eq (f : Flags) (c : Bool) (r : Byte) :
    f.withCZN c r = { f with carry := c, zero := decide (r.toNat = 0), negative := decide (128 ≤ r.toNat) } := by
  rw [Flags.withCZN, Flags.withZN, decide_eq_zero_eq_toNat, BitVec.msb_eq_decide]

/-- What the instructions of 41_alu_arith.md that write a result have in common: C is their own, Z and N come from the result. -/
theorem writesRegAndFlags_of_withCZN {i : Instr} {dst : Reg} {res : State → Byte} {c : State → Bool} {result : State → Nat}
    (hexec : ∀ s, exec i s = .next ((writeReg dst (res s) s).setFlags (s.flags.withCZN (c s) (res s))))
    (hres : ∀ s, (res s).toNat = result s) :
    WritesRegAndFlags i dst result fun s r =>
      { s.flags with carry := c s, zero := decide (r = 0), negative := decide (128 ≤ r) } :=
  writesRegAndFlags_of_exec hexec hres fun s => s.flags.withCZN_eq (c s) (res s)

/-! ### Sums and differences on numbers -/

/-- The sum with carry in is exact modulo 256 (41_alu_arith.md R132). -/
theorem toNat_addCarry (a b : Byte) (c : Bool) :
    (a + b + (if c then 1 else 0)).toNat = (a.toNat + b.toNat + c.toNat) % 256 := by
  cases c <;> simp [BitVec.toNat_add]

/-- The difference with borrow in is exact modulo 256 (41_alu_arith.md R134). -/
theorem toNat_subBorrow (a b : Byte) (c : Bool) :
    (a - b - (if c then 1 else 0)).toNat = (a.toNat + 512 - (b.toNat + c.toNat)) % 256 := by
  cases c with
  | false => simp [BitVec.toNat_sub]; omega
  | true => simp [BitVec.toNat_sub]; omega

/-- ADD and ADC, by their carry in (41_alu_arith.md R131, R132). -/
theorem writesRegAndFlags_addOp {i : Instr} {dst : Reg} {src : Src8} {c : State → Bool}
    (hexec : ∀ s, exec i s = .next (addOp (c s) dst src s)) :
    WritesRegAndFlags i dst (fun s => ((readReg dst s).toNat + (src8 src s).toNat + (c s).toNat) % 256) fun s r =>
      { s.flags with
        carry := decide ((readReg dst s).toNat + (src8 src s).toNat + (c s).toNat > 255)
        zero := decide (r = 0), negative := decide (128 ≤ r) } :=
  writesRegAndFlags_of_withCZN hexec fun s => toNat_addCarry (readReg dst s) (src8 src s) (c s)

/-- SUB and SBB, by their borrow in (41_alu_arith.md R133, R134). -/
theorem writesRegAndFlags_subOp {i : Instr} {dst : Reg} {src : Src8} {c : State → Bool}
    (hexec : ∀ s, exec i s = .next (subOp (c s) dst src s)) :
    WritesRegAndFlags i dst (fun s => ((readReg dst s).toNat + 512 - ((src8 src s).toNat + (c s).toNat)) % 256) fun s r =>
      { s.flags with
        carry := decide ((readReg dst s).toNat < (src8 src s).toNat + (c s).toNat)
        zero := decide (r = 0), negative := decide (128 ≤ r) } :=
  writesRegAndFlags_of_withCZN hexec fun s => toNat_subBorrow (readReg dst s) (src8 src s) (c s)

/-! ### Comparison -/

/-- The flags of a comparison on numbers (41_alu_arith.md R137). -/
theorem Flags.withCompare_eq (f : Flags) (a b : Byte) :
    f.withCompare a b = { f with
      equal := decide (a.toNat = b.toNat), superior := decide (a.toNat > b.toNat), inferior := decide (a.toNat < b.toNat) } := by
  rw [Flags.withCompare, decide_eq_decide.2 BitVec.toNat_inj]

/-- Exactly one of E, S and F is set by a comparison: the trichotomy of numbers. -/
theorem Flags.withCompare_exactly_one (f : Flags) (a b : Byte) :
    (f.withCompare a b).equal.toNat + (f.withCompare a b).superior.toNat + (f.withCompare a b).inferior.toNat = 1 := by
  rw [Flags.withCompare_eq]
  obtain h | h | h := Nat.lt_trichotomy a.toNat b.toNat
  · simp [h, h.ne, h.le]
  · simp [h]
  · simp [h, h.ne', h.le]

/-! ### The obligations -/

/-- Settles O17: ADD is the sum with no carry in. -/
theorem addEveryForm : Obligations.AddEveryForm :=
  everyAluForm_of_src8 (o := .add) rfl fun dst src => writesRegAndFlags_addOp (c := fun _ => false) (exec_add dst src)

/-- Settles O18: ADC is the sum with the old F.C in. -/
theorem adcEveryForm : Obligations.AdcEveryForm :=
  everyAluForm_of_src8 (o := .adc) rfl fun dst src => writesRegAndFlags_addOp (exec_adc dst src)

/-- Settles O19: SUB is the difference with no borrow in; 256 and 512 agree modulo 256. -/
theorem subEveryForm : Obligations.SubEveryForm := by
  refine everyAluForm_of_src8 (o := .sub) rfl fun dst src => ?_
  have hmod : ∀ s, ((readReg dst s).toNat + 256 - (src8 src s).toNat) % 256 =
      ((readReg dst s).toNat + 512 - ((src8 src s).toNat + false.toNat)) % 256 := by
    intro s
    have := (src8 src s).isLt
    simp only [Bool.toNat_false]
    omega
  rw [funext hmod]
  exact writesRegAndFlags_subOp (c := fun _ => false) (exec_sub dst src)

/-- Settles O20: SBB is the difference with the old F.C as borrow in. -/
theorem sbbEveryForm : Obligations.SbbEveryForm :=
  everyAluForm_of_src8 (o := .sbb) rfl fun dst src => writesRegAndFlags_subOp (exec_sbb dst src)

/-- Settles O21: INC and DEC have one form each, and adding 255 takes one away modulo 256. -/
theorem incAndDec : Obligations.IncAndDec := by
  refine ⟨onlyModes_of_oneRegForm (o := .inc) rfl, onlyModes_of_oneRegForm (o := .dec) rfl, fun r1 =>
    ⟨encodedAs_parts (.incReg r1), encodedAs_parts (.decReg r1), ?inc, ?dec⟩⟩
  case inc =>
    refine writesRegAndFlags_of_withCZN (res := fun s => readReg r1 s + 1) (fun _ => rfl) fun s => ?_
    simp [BitVec.toNat_add]
  case dec =>
    refine writesRegAndFlags_of_withCZN (res := fun s => readReg r1 s - 1) (fun _ => rfl) fun s => ?_
    simp [BitVec.toNat_sub, Nat.add_comm]

/-- Settles O22: CMP writes the flags of a comparison and nothing else. -/
theorem cmpEveryForm : Obligations.CmpEveryForm := by
  refine everyAluForm_of_src8 (o := .cmp) rfl fun dst src s => ⟨_, exec_cmp dst src s, ?flags, ?exactlyOne, ?frame⟩
  case flags => exact s.flags.withCompare_eq (readReg dst s) (src8 src s)
  case exactlyOne => exact s.flags.withCompare_exactly_one (readReg dst s) (src8 src s)
  case frame => simp [cmpOp, SameRegs, SameMem, SamePorts, SameStack, SamePc, SameFabric]

end Sys2Proof.Machine

end

/-! SUPPORT. The logic family: the flags that logic and shifts write, on numbers, and the bitwise operation of AND, OR and XOR
as a parameter (spec 42_alu_logic.md). -/

section

namespace Sys2Proof.Machine

/-! ### The forms of a logic mnemonic -/

section exec

variable (dst : Reg) (src : Src8) (s : State)

theorem exec_and :
    exec (aluInstr .andReg .andRegImm8 .andRegRam .andRamreg dst src) s = .next (logicOp (· &&& ·) dst src s) := by
  obtain _ | _ | _ | _ := src <;> rfl

theorem exec_or : exec (aluInstr .orReg .orRegImm8 .orRegRam .orRamreg dst src) s = .next (logicOp (· ||| ·) dst src s) := by
  obtain _ | _ | _ | _ := src <;> rfl

theorem exec_xor :
    exec (aluInstr .xorReg .xorRegImm8 .xorRegRam .xorRamreg dst src) s = .next (logicOp (· ^^^ ·) dst src s) := by
  obtain _ | _ | _ | _ := src <;> rfl

end exec

/-! ### Flags without carry, and without negative -/

/-- F.Z and F.N are read from the result as a number, and F.C is kept (42_alu_logic.md R150). -/
theorem Flags.withZN_eq (f : Flags) (r : Byte) :
    f.withZN r = { f with zero := decide (r.toNat = 0), negative := decide (128 ≤ r.toNat) } := by
  rw [Flags.withZN, decide_eq_zero_eq_toNat, BitVec.msb_eq_decide]

/-- F.Z is read from the result as a number, and F.N is kept (42_alu_logic.md R156). -/
theorem Flags.withCZ_eq (f : Flags) (c : Bool) (r : Byte) :
    f.withCZ c r = { f with carry := c, zero := decide (r.toNat = 0) } := by
  rw [Flags.withCZ, decide_eq_zero_eq_toNat]

/-- What AND, OR, XOR and NOT have in common: Z and N come from the result, and C is kept. -/
theorem writesRegAndFlags_of_withZN {i : Instr} {dst : Reg} {res : State → Byte} {result : State → Nat}
    (hexec : ∀ s, exec i s = .next ((writeReg dst (res s) s).setFlags (s.flags.withZN (res s))))
    (hres : ∀ s, (res s).toNat = result s) :
    WritesRegAndFlags i dst result fun s r => { s.flags with zero := decide (r = 0), negative := decide (128 ≤ r) } :=
  writesRegAndFlags_of_exec hexec hres fun s => s.flags.withZN_eq (res s)

/-- AND, OR and XOR, by their operation `f` on bytes and the same operation `g` on numbers (42_alu_logic.md R151 to R153). -/
theorem writesRegAndFlags_logicOp {i : Instr} {dst : Reg} {src : Src8} {f : Byte → Byte → Byte} {g : Nat → Nat → Nat}
    (hexec : ∀ s, exec i s = .next (logicOp f dst src s)) (hfg : ∀ a b, (f a b).toNat = g a.toNat b.toNat) :
    WritesRegAndFlags i dst (fun s => g (readReg dst s).toNat (src8 src s).toNat) fun s r =>
      { s.flags with zero := decide (r = 0), negative := decide (128 ≤ r) } :=
  writesRegAndFlags_of_withZN hexec fun s => hfg (readReg dst s) (src8 src s)

/-! ### Complement and shifts on numbers -/

/-- Shifting a byte left by one doubles it modulo 256 (42_alu_logic.md R155). -/
theorem toNat_shiftLeft_one (a : Byte) : (a <<< 1).toNat = 2 * a.toNat % 256 := by
  rw [BitVec.toNat_shiftLeft, Nat.shiftLeft_eq, pow_one, Nat.mul_comm]

/-- Shifting a byte right by one halves it (42_alu_logic.md R156). -/
theorem toNat_shiftRight_one (a : Byte) : (a >>> 1).toNat = a.toNat / 2 := by
  rw [BitVec.toNat_ushiftRight, Nat.shiftRight_one]

/-- The bit that SHL shifts out tells a byte of 128 or more (42_alu_logic.md R155). -/
theorem getLsbD_seven_eq_decide (a : Byte) : a.getLsbD 7 = decide (128 ≤ a.toNat) := by
  rw [← BitVec.msb_eq_getLsbD_last, BitVec.msb_eq_decide]

/-- The bit that SHR shifts out tells an odd byte (42_alu_logic.md R156). -/
theorem getLsbD_zero_eq_decide (a : Byte) : a.getLsbD 0 = decide (a.toNat % 2 = 1) := by
  rw [BitVec.getLsbD, Nat.testBit_zero]

/-- SHL, with the bit shifted out on numbers. -/
theorem exec_shl (r : Reg) (s : State) :
    exec (.shlReg r) s = .next ((writeReg r (readReg r s <<< 1) s).setFlags
      (s.flags.withCZN (decide (128 ≤ (readReg r s).toNat)) (readReg r s <<< 1))) := by
  rw [← getLsbD_seven_eq_decide]
  rfl

/-- SHR, with the bit shifted out on numbers. -/
theorem exec_shr (r : Reg) (s : State) :
    exec (.shrReg r) s = .next ((writeReg r (readReg r s >>> 1) s).setFlags
      (s.flags.withCZ (decide ((readReg r s).toNat % 2 = 1)) (readReg r s >>> 1))) := by
  rw [← getLsbD_zero_eq_decide]
  rfl

/-! ### The obligations -/

/-- Settles O23: each of the three operations on bytes is the same operation on numbers. -/
theorem logicEveryForm : Obligations.LogicEveryForm :=
  ⟨everyAluForm_of_src8 (o := .and) rfl fun dst src => writesRegAndFlags_logicOp (exec_and dst src) BitVec.toNat_and,
    everyAluForm_of_src8 (o := .or) rfl fun dst src => writesRegAndFlags_logicOp (exec_or dst src) BitVec.toNat_or,
    everyAluForm_of_src8 (o := .xor) rfl fun dst src => writesRegAndFlags_logicOp (exec_xor dst src) BitVec.toNat_xor⟩

/-- Settles O24: NOT, SHL and SHR have one form each; SHR takes its flags from `Flags.withCZ_eq`, which leaves F.N. -/
theorem notAndShifts : Obligations.NotAndShifts := by
  refine ⟨onlyModes_of_oneRegForm (o := .not) rfl, onlyModes_of_oneRegForm (o := .shl) rfl,
    onlyModes_of_oneRegForm (o := .shr) rfl, fun r1 =>
    ⟨encodedAs_parts (.notReg r1), encodedAs_parts (.shlReg r1), encodedAs_parts (.shrReg r1), ?not, ?shl, ?shr⟩⟩
  case not => exact writesRegAndFlags_of_withZN (fun _ => rfl) fun s => BitVec.toNat_not
  case shl => exact writesRegAndFlags_of_withCZN (exec_shl r1) fun s => toNat_shiftLeft_one (readReg r1 s)
  case shr =>
    exact writesRegAndFlags_of_exec (exec_shr r1) (fun s => toNat_shiftRight_one (readReg r1 s)) fun s =>
      s.flags.withCZ_eq _ _

end Sys2Proof.Machine

end

/-! SUPPORT. The control family: the two forms of a jump as one instruction with a target, what one pop and then any number of
pops do, in closed form, and the pops that undo the pushes of a call (spec 43_control.md). -/

section

namespace Sys2Proof.Machine

/-! ### The two forms of a jump -/

/-- A jump in every state: taken it writes PC and marker, not taken it writes nothing (43_control.md R170). -/
theorem jumpsWhen_of_jumpIf {i : Instr} {taken : State → Bool} {target : Target}
    (hexec : ∀ s, exec i s = .next (jumpIf (taken s) target s)) : JumpsWhen i taken (target16 target) := by
  intro s
  refine ⟨_, hexec s, ?_⟩
  cases taken s with
  | true => simp [jumpIf, SameRegs, SameMem, SamePorts, SameStack, SameFabric]
  | false => simp [jumpIf, SamePc, SameRegs, SameMem, SamePorts, SameStack, SameFabric]

/-- A mnemonic with the modes of a jump whose two forms both run as `jumpIf`. -/
theorem everyJumpForm_of_jumpIf {o : Op} {imm16 : Word → Instr} {reg16 : Reg → Reg → Instr} {taken : State → Bool}
    (hform : formOf o = jumpForms imm16 reg16)
    (himm : ∀ vx s, exec (imm16 vx) s = .next (jumpIf (taken s) (.imm16 vx) s))
    (hreg : ∀ r1 r2 s, exec (reg16 r1 r2) s = .next (jumpIf (taken s) (.reg16 r1 r2) s)) :
    EveryJumpForm imm16 reg16 (opcodeOf o) taken := by
  have hencoded : ∀ m f i, jumpForms imm16 reg16 m f = some i → EncodedAs i (opcodeOf o) (modeCode m) :=
    fun m f i h => encodedAs_of_formOf (hform ▸ h)
  refine ⟨fun vx => ⟨?_, jumpsWhen_of_jumpIf (himm vx)⟩, fun r1 r2 => ⟨?_, jumpsWhen_of_jumpIf (hreg r1 r2)⟩⟩
  · exact hencoded .imm16 ⟨.a, .a, .a, 0, vx⟩ _ rfl
  · exact hencoded .reg16 ⟨r1, r2, r1, 0, 0⟩ _ rfl

/-! ### One pop in closed form -/

theorem stackHeld_of_empty {s : State} (hsp : s.sp = 0) (hfull : s.full = false) : stackHeld s = 0 := by
  simp [stackHeld, hsp, hfull]

/-- Where there is a byte, the pointer less one counts the others; on the full stack it wraps to 255 (40_execution_cycle.md R115). -/
theorem stackHeld_of_not_empty {s : State} (h : ¬ (s.sp = 0 ∧ s.full = false)) : stackHeld s = (s.sp - 1).toNat + 1 := by
  rw [stackHeld]
  split
  case isTrue hlast => simp [hlast.2]
  case isFalse hlast =>
    have hsp : s.sp ≠ 0 := fun h0 => h ⟨h0, by simpa [h0] using hlast⟩
    bv_omega

theorem stackEmpty_eq_decide (s : State) : stackEmpty s = decide (stackHeld s = 0) := by
  by_cases h : s.sp = 0 ∧ s.full = false
  · simp [stackEmpty, stackHeld_of_empty h.1 h.2, h]
  · rw [stackHeld_of_not_empty h]
    simpa [stackEmpty] using h

/-- A pop takes one byte where there is one, and none where there is none. -/
@[simp] theorem stackHeld_pop (s : State) : stackHeld (pop s).2 = stackHeld s - 1 := by
  by_cases h : s.sp = 0 ∧ s.full = false
  · obtain ⟨hsp, hfull⟩ := h
    rw [pop_of_empty hsp hfull, stackHeld_of_empty hsp hfull]
    exact stackHeld_of_empty hsp hfull
  · rw [pop_of_not_empty h, stackHeld_of_not_empty h]
    simp [stackHeld]

theorem pop_fst (s : State) : (pop s).1 = poppedByte s 0 := by
  by_cases h : s.sp = 0 ∧ s.full = false
  · simp [poppedByte, pop_of_empty h.1 h.2, stackHeld_of_empty h.1 h.2]
  · simp [poppedByte, pop_of_not_empty h, stackHeld_of_not_empty h]

/-- The pointer after a pop; on the empty stack it stays. -/
theorem pop_sp (s : State) : (pop s).2.sp = s.sp - BitVec.ofNat 8 (min 1 (stackHeld s)) := by
  by_cases h : s.sp = 0 ∧ s.full = false
  · simp [pop_of_empty h.1 h.2, stackHeld_of_empty h.1 h.2]
  · simp [pop_of_not_empty h, stackHeld_of_not_empty h]

/-- No pop leaves the latch set (40_execution_cycle.md R117). -/
theorem pop_full (s : State) : (pop s).2.full = false := by
  by_cases h : s.sp = 0 ∧ s.full = false
  · simp [pop_of_empty h.1 h.2, h.2]
  · simp [pop_of_not_empty h]

/-- After a pop, every byte is one pop nearer. -/
theorem poppedByte_pop (s : State) (k : Nat) : poppedByte (pop s).2 k = poppedByte s (k + 1) := by
  by_cases h : k + 1 < stackHeld s
  · have hk : k < stackHeld s - 1 := by omega
    have haddr : (pop s).2.sp - 1 - BitVec.ofNat 8 k = s.sp - 1 - BitVec.ofNat 8 (k + 1) := by
      rw [pop_sp, Nat.min_eq_left (by omega)]
      bv_omega
    rw [poppedByte, poppedByte, haddr]
    simp [h, hk]
  · have hk : ¬ k < stackHeld s - 1 := by omega
    simp [poppedByte, h, hk]

/-! ### Runs of pops in closed form -/

theorem stackAfterPopping_zero (s : State) : StackAfterPopping 0 s s := by
  simp [StackAfterPopping, SameMem]

/-- A pop and then `n` pops are `n + 1` pops (40_execution_cycle.md R117). -/
theorem StackAfterPopping.succ {n : Nat} {s t : State} (h : StackAfterPopping n (pop s).2 t) : StackAfterPopping (n + 1) s t := by
  obtain ⟨hsp, hlatch, hmem⟩ := h
  rw [stackHeld_pop] at hsp
  rw [pop_full, Bool.false_and] at hlatch
  refine ⟨?pointer, ?latch, ?memory⟩
  case pointer =>
    have hsplit : min (n + 1) (stackHeld s) = min 1 (stackHeld s) + min n (stackHeld s - 1) := by omega
    rw [hsp, pop_sp, hsplit, BitVec.ofNat_add, sub_add_eq_sub_sub]
  case latch =>
    rw [hlatch]
    cases hfull : s.full with
    | false => rfl
    | true =>
      have hheld : stackHeld s ≠ 0 := by
        rw [stackHeld_of_not_empty (by simp [hfull])]
        exact Nat.succ_ne_zero _
      simp [hheld]
  case memory => exact fun a => (hmem a).trans (memRead_pop s _ a)

theorem stackAfterPopping_popAll (n : Nat) (s : State) : StackAfterPopping n s (popAll n s).2 := by
  induction n generalizing s with
  | zero => exact stackAfterPopping_zero s
  | succ n ih => exact (ih (pop s).2).succ

/-- The carry of one pop, then of `n` more, is the carry of `n + 1` (40_execution_cycle.md R117). -/
theorem carryAfterPopping_pop (n : Nat) (s : State) : carryAfterPopping n (pop s).2 = carryAfterPopping (n + 1) s := by
  have hheld : (stackHeld s = 0 ∨ stackHeld s - 1 < n) ↔ stackHeld s < n + 1 := by omega
  simp only [carryAfterPopping, pop_flags, stackHeld_pop, stackEmpty_eq_decide, Bool.or_assoc, ← Bool.decide_or, hheld]

theorem flags_popAll (n : Nat) (s : State) :
    (popAll n s).2.flags = { s.flags with carry := carryAfterPopping n s } := by
  induction n generalizing s with
  | zero => simp [popAll, carryAfterPopping]
  | succ n ih => rw [popAll, ih, carryAfterPopping_pop, pop_flags]

/-! ### Pushing and popping a word -/

theorem pushWord_eq_pushAll (w : Word) (s : State) : pushWord w s = pushAll [w.extractLsb' 8 8, w.extractLsb' 0 8] s := rfl

theorem popWord_snd_eq_popAll (s : State) : (popWord s).2 = (popAll 2 s).2 := rfl

/-- The word popped, 0x00 standing for each byte that the stack lacks (43_control.md R179). -/
theorem popWord_fst (s : State) : (popWord s).1 = (poppedByte s 1).getD 0 ++ (poppedByte s 0).getD 0 := by
  simp only [popWord, byteOr0, pop_fst, poppedByte_pop, Nat.zero_add]

/-- A word that fits is popped as it was pushed, and pointer, latch and flags are as before. -/
theorem popWord_pushWord {s : State} (w : Word) (h : 2 ≤ stackFree s) :
    (popWord (pushWord w s)).1 = w ∧ SameStack s (popWord (pushWord w s)).2 ∧ (popWord (pushWord w s)).2.flags = s.flags := by
  obtain ⟨hbytes, hsp, hfull, hflags⟩ := stackIsLastInFirstOut [w.extractLsb' 8 8, w.extractLsb' 0 8] s h
  refine ⟨?word, ⟨hsp, hfull⟩, hflags⟩
  rw [← pushWord_eq_pushAll] at hbytes
  obtain ⟨hlo, hhi⟩ : (pop (pushWord w s)).1 = some (w.extractLsb' 0 8) ∧
      (pop (pop (pushWord w s)).2).1 = some (w.extractLsb' 8 8) := by simpa [popAll] using hbytes
  simp only [popWord, hlo, hhi]
  exact extract_append_word w

/-- Pops do not read the PC, nor the marker. -/
theorem pop_jumpTo (a : Word) (s : State) : pop (jumpTo a s) = ((pop s).1, jumpTo a (pop s).2) := by
  rcases pop_cases s Config.params with ⟨hsp, hfull, e⟩ | ⟨hn, e⟩
  · rw [e]; exact pop_of_empty hsp hfull
  · rw [e]; exact pop_of_not_empty hn

/-! ### Calls and returns -/

theorem retOp_eq (s : State) : retOp s = jumpTo (popWord s).1 (popWord s).2 := rfl

theorem jumpTo_jumpTo (a b : Word) (s : State) : jumpTo b (jumpTo a s) = jumpTo b s := rfl

theorem sameStack_jumpTo {a : Word} {s t : State} : SameStack s (jumpTo a t) ↔ SameStack s t := Iff.rfl

theorem stackAfterPopping_jumpTo {n : Nat} {a : Word} {s t : State} :
    StackAfterPopping n s (jumpTo a t) ↔ StackAfterPopping n s t := Iff.rfl

/-- The address of the next instruction (43_control.md R178). -/
theorem nextPc_eq (s : State) : nextPc s = s.pc + 4 := rfl

/-- Everything CAL does, whatever its target operand (43_control.md R178). -/
theorem callOp_spec (target : Target) (s : State) :
    StackAfterPushing [(s.pc + 4).extractLsb' 8 8, (s.pc + 4).extractLsb' 0 8] s (callOp target s) ∧
      (callOp target s).flags = { s.flags with carry := carryAfterPushing 2 s } ∧
      (callOp target s).pc = target16 target s ∧ (callOp target s).jmp = true ∧
      SameRegs s (callOp target s) ∧ SamePorts s (callOp target s) ∧ SameFabric s (callOp target s) := by
  obtain ⟨hstack, hflags⟩ := manyPushesFillTheStack [(s.pc + 4).extractLsb' 8 8, (s.pc + 4).extractLsb' 0 8] s
  refine ⟨hstack, hflags, rfl, rfl, ?registers, ?ports, ?fabric⟩
  case registers => simp [SameRegs, callOp, pushWord]
  case ports => simp [SamePorts, callOp, pushWord]
  case fabric => simp [SameFabric, callOp, pushWord]

/-- A return after a call pops from the stack that the call's pushes left. -/
theorem retOp_callOp (target : Target) (s : State) :
    retOp (callOp target s) = jumpTo (popWord (pushWord (nextPc s) s)).1 (popWord (pushWord (nextPc s) s)).2 := by
  simp only [retOp_eq, callOp, popWord, pop_jumpTo, jumpTo_jumpTo]

/-- A call that fits is undone by a return, but for the memory it wrote and the PC, which is past the call. -/
theorem retOp_callOp_spec (target : Target) {s : State} (h : 2 ≤ stackFree s) :
    (retOp (callOp target s)).pc = s.pc + 4 ∧ SameStack s (retOp (callOp target s)) ∧
      (retOp (callOp target s)).flags = s.flags ∧ SameRegs s (retOp (callOp target s)) := by
  obtain ⟨hpc, hstack, hflags⟩ := popWord_pushWord (nextPc s) h
  rw [retOp_callOp, jumpTo_pc, jumpTo_flags, sameStack_jumpTo]
  exact ⟨hpc, hstack, hflags, by simp [SameRegs, popWord, pushWord]⟩

/-! ### The obligations -/

/-- Settles O26: each mnemonic is a `jumpIf` on its own flag. -/
theorem conditionalJumps : Obligations.ConditionalJumps :=
  ⟨everyJumpForm_of_jumpIf (o := .jmc) rfl (fun _ _ => rfl) fun _ _ _ => rfl,
    everyJumpForm_of_jumpIf (o := .jme) rfl (fun _ _ => rfl) fun _ _ _ => rfl,
    everyJumpForm_of_jumpIf (o := .jmn) rfl (fun _ _ => rfl) fun _ _ _ => rfl,
    everyJumpForm_of_jumpIf (o := .jms) rfl (fun _ _ => rfl) fun _ _ _ => rfl,
    everyJumpForm_of_jumpIf (o := .jmz) rfl (fun _ _ => rfl) fun _ _ _ => rfl⟩

/-- Settles O27: JMF is a `jumpIf` on INFERIOR. -/
theorem jumpIfInferior : Obligations.JumpIfInferior :=
  everyJumpForm_of_jumpIf (o := .jmf) rfl (fun _ _ => rfl) fun _ _ _ => rfl

/-- Settles O28: both forms run as `callOp`, whose pushes are a run of two. -/
theorem callPushesReturnAddress : Obligations.CallPushesReturnAddress := by
  rintro i op target (⟨vx, rfl, rfl, rfl⟩ | ⟨r1, r2, rfl, rfl, rfl⟩)
  · exact ⟨encodedAs_parts (.calImm16 vx), fun s => ⟨_, rfl, callOp_spec (.imm16 vx) s⟩⟩
  · exact ⟨encodedAs_parts (.calReg16 r1 r2), fun s => ⟨_, rfl, callOp_spec (.reg16 r1 r2) s⟩⟩

/-- Settles O29: RET's pops are a run of two, whose bytes make the target. -/
theorem returnPopsTarget : Obligations.ReturnPopsTarget := by
  refine ⟨encodedAs_parts .ret, fun s => ⟨retOp s, rfl, popWord_fst s, rfl, ?stack, ?flags, ?frame⟩⟩
  case stack =>
    rw [retOp_eq, stackAfterPopping_jumpTo, popWord_snd_eq_popAll]
    exact stackAfterPopping_popAll 2 s
  case flags => rw [retOp_eq, jumpTo_flags, popWord_snd_eq_popAll, flags_popAll]
  case frame => simp [retOp, popWord, SameRegs, SamePorts, SameFabric]

/-- Settles O36: the two bytes that CAL pushed are the two that RET pops. -/
theorem callThenReturn : Obligations.CallThenReturn := by
  rintro s i (⟨vx, rfl⟩ | ⟨r1, r2, rfl⟩) h
  · exact ⟨_, _, rfl, rfl, retOp_callOp_spec (.imm16 vx) h⟩
  · exact ⟨_, _, rfl, rfl, retOp_callOp_spec (.reg16 r1 r2) h⟩

/-- Settles O25: JMP is a jump that is always taken. -/
theorem jumpAlways : Obligations.JumpAlways :=
  everyJumpForm_of_jumpIf (o := .jmp) rfl (fun _ _ => rfl) fun _ _ _ => rfl

end Sys2Proof.Machine

end

/-! SUPPORT. The stack family: PSH is a run of one push, POP a run of one pop and then a register written only where that pop gave a
byte (spec 44_stack.md). -/

section

namespace Sys2Proof.Machine

/-! ### PSH -/

/-- Everything a push does, with room and without (40_execution_cycle.md R116). -/
theorem push_spec (v : Byte) (s : State) :
    StackAfterPushing [v] s (push v s) ∧ (push v s).flags = { s.flags with carry := carryAfterPushing 1 s } ∧
      SameRegs s (push v s) ∧ SamePorts s (push v s) ∧ SamePc s (push v s) ∧ SameFabric s (push v s) := by
  obtain ⟨hstack, hflags⟩ := manyPushesFillTheStack [v] s
  refine ⟨hstack, hflags, ?registers, ?ports, ?pc, ?fabric⟩
  case registers => simp [SameRegs]
  case ports => simp [SamePorts]
  case pc => simp [SamePc]
  case fabric => simp [SameFabric]

/-! ### A register written where there is a byte -/

theorem readReg_writeRegOpt_same (r : Reg) (v : Option Byte) (s : State) :
    readReg r (writeRegOpt r v s) = v.getD (readReg r s) := by
  rcases writeRegOpt_cases r v s with ⟨rfl, e⟩ | ⟨x, rfl, e⟩
  · rw [e, Option.getD_none]
  · rw [e, readReg_writeReg_same, Option.getD_some]

theorem sameRegsBut_writeRegOpt (r : Reg) (v : Option Byte) (s : State) : SameRegsBut r s (writeRegOpt r v s) := by
  intro q hq
  rcases writeRegOpt_cases r v s with ⟨-, e⟩ | ⟨x, -, e⟩
  · rw [e]
  · rw [e, readReg_writeReg_other hq]

/-! ### POP -/

/-- The register is the popped byte, or as before where the stack held none (44_stack.md R191). -/
theorem readReg_popOp (r : Reg) (s : State) : readReg r (popOp r s) = (poppedByte s 0).getD (readReg r s) := by
  rw [popOp, readReg_writeRegOpt_same, pop_fst, readReg_pop]

theorem sameRegsBut_popOp (r : Reg) (s : State) : SameRegsBut r s (popOp r s) :=
  fun q hq => (sameRegsBut_writeRegOpt r (pop s).1 (pop s).2 q hq).trans (readReg_pop s Config.params q)

/-- Outside the register file, POP is a run of one pop. -/
theorem popOp_eq_setRegs (r : Reg) (s : State) : ∃ g, popOp r s = (popAll 1 s).2.setRegs g :=
  writeRegOpt_eq_setRegs r (pop s).1 (pop s).2

/-- Everything POP does outside the register file (44_stack.md R191). -/
theorem popOp_frame (r : Reg) (s : State) :
    StackAfterPopping 1 s (popOp r s) ∧ (popOp r s).flags = { s.flags with carry := carryAfterPopping 1 s } ∧
      SamePorts s (popOp r s) ∧ SamePc s (popOp r s) ∧ SameFabric s (popOp r s) := by
  obtain ⟨g, e⟩ := popOp_eq_setRegs r s
  rw [e]
  refine ⟨?stack, ?flags, ?ports, ?pc, ?fabric⟩
  case stack => exact stackAfterPopping_popAll 1 s
  case flags => exact flags_popAll 1 s
  case ports => simp [SamePorts, popAll]
  case pc => simp [SamePc, popAll]
  case fabric => simp [SameFabric, popAll]

/-! ### The obligations -/

/-- Settles O30: both forms run as one push of their operand. -/
theorem pushInstruction : Obligations.PushInstruction := by
  rintro i mode value (⟨r1, rfl, rfl, rfl⟩ | ⟨v1, rfl, rfl, rfl⟩)
  · exact ⟨encodedAs_parts (.pshReg r1), fun s => ⟨_, rfl, push_spec (readReg r1 s) s⟩⟩
  · exact ⟨encodedAs_parts (.pshImm8 v1), fun s => ⟨_, rfl, push_spec v1 s⟩⟩

/-- Settles O31: the register clauses from the optional write, all others from the frame of POP. -/
theorem popInstruction : Obligations.PopInstruction :=
  fun r1 => ⟨encodedAs_parts (.popReg r1), fun s =>
    ⟨popOp r1 s, rfl, readReg_popOp r1 s, sameRegsBut_popOp r1 s, popOp_frame r1 s⟩⟩

end Sys2Proof.Machine

end

/-! SUPPORT. The data transfer family: a register write alone, a memory write alone and a port write alone, each with everything it
leaves as it was (spec 45_memory_io.md). -/

section

namespace Sys2Proof.Machine

/-! ### The modes of MOV -/

/-- A mnemonic whose forms are those of MOV has the modes REG and REG_IMM8 alone. -/
theorem onlyModes_of_moveForms {o : Op} {reg : Reg → Reg → Instr} {imm : Reg → Byte → Instr}
    (h : formOf o = moveForms reg imm) : OnlyModes (opcodeOf o) [1, 2] := by
  refine onlyModes_of_supported fun m hm => ?_
  have hf : ∀ f : OperandFields, (moveForms reg imm m f).isSome = true := fun f => h ▸ formOf_isSome_iff.2 hm
  obtain ⟨i, hi⟩ := Option.isSome_iff_exists.1 (hf (operandFields 0))
  obtain ⟨rfl, -⟩ | ⟨rfl, -⟩ := moveForms_eq_some_iff.1 hi
  · exact List.mem_cons_self
  · exact List.mem_cons_of_mem _ List.mem_cons_self

/-! ### A register written and no flag -/

theorem writeReg_setFlags_self (r : Reg) (v : Byte) (s : State) : (writeReg r v s).setFlags s.flags = writeReg r v s := rfl

/-- A register write alone keeps the flags and everything else. -/
theorem writesRegAndFlags_of_writeReg {i : Instr} {dst : Reg} {res : State → Byte}
    (hexec : ∀ s, exec i s = .next (writeReg dst (res s) s)) :
    WritesRegAndFlags i dst (fun s => (res s).toNat) fun s _ => s.flags :=
  writesRegAndFlags_of_exec (fun s => by rw [hexec, writeReg_setFlags_self]) (fun _ => rfl) fun _ => rfl

/-- MOV and LOD, by their source operand: it is read in the state before, so LOD's address uses the old registers
(45_memory_io.md R200, R202). -/
theorem writesRegAndFlags_moveOp {i : Instr} {dst : Reg} (src : Src8) (hexec : ∀ s, exec i s = .next (moveOp dst src s)) :
    WritesRegAndFlags i dst (fun s => (src8 src s).toNat) fun s _ => s.flags :=
  writesRegAndFlags_of_writeReg hexec

/-- IN, by its port (45_memory_io.md R206). -/
theorem writesRegAndFlags_inOp {i : Instr} {dst : Reg} {port : State → Byte}
    (hexec : ∀ s, exec i s = .next (inOp dst (port s) s)) :
    WritesRegAndFlags i dst (fun s => (portRead (port s) s).toNat) fun s _ => s.flags :=
  writesRegAndFlags_of_writeReg hexec

/-! ### A byte of memory written -/

/-- STR, by its memory operand (45_memory_io.md R203). -/
theorem storesByte_of_storeOp {i : Instr} {o : MemOperand} {src : Reg} (hexec : ∀ s, exec i s = .next (storeOp o src s)) :
    StoresByte i (effectiveAddr o) src := by
  intro s
  refine ⟨_, hexec s, ?written, ?others, ?frame⟩
  case written => exact memRead_memWrite_same (effectiveAddr o s) (readReg src s) s
  case others => exact fun a ha => memRead_memWrite_other ha (readReg src s) s
  case frame => simp [storeOp, SameRegs, SamePorts, SameStack, SamePc, SameFabric]

/-! ### A port written -/

@[simp] theorem portRead_portWrite_same (p v : Byte) (s : State) : portRead p (portWrite p v s) = v := by
  simp [portRead_portWrite]

theorem portRead_portWrite_other {p q : Byte} (h : q ≠ p) (v : Byte) (s : State) :
    portRead q (portWrite p v s) = portRead q s := by
  simp [portRead_portWrite, h]

/-- OUT, by its port: no owner is looked up, and no interrupt is queued (45_memory_io.md R207). -/
theorem writesPort_of_portWrite {i : Instr} {port : State → Byte} {src : Reg}
    (hexec : ∀ s, exec i s = .next (portWrite (port s) (readReg src s) s)) : WritesPort i port src := by
  intro s
  refine ⟨_, hexec s, ?written, ?others, ?frame⟩
  case written => exact portRead_portWrite_same (port s) (readReg src s) s
  case others => exact fun p hp => portRead_portWrite_other hp (readReg src s) s
  case frame => simp [SameRegs, SameMem, SameStack, SamePc, SameFabric]

/-! ### The obligations -/

/-- Settles O38: both forms move their source operand, and the table has no other form of MOV. -/
theorem moveInstructions : Obligations.MoveInstructions :=
  ⟨onlyModes_of_moveForms (o := .mov) rfl,
    fun r1 r2 => ⟨encodedAs_parts (.movReg r1 r2), writesRegAndFlags_moveOp (.reg r2) fun _ => rfl⟩,
    fun r1 v1 => ⟨encodedAs_parts (.movRegImm8 r1 v1), writesRegAndFlags_moveOp (.imm v1) fun _ => rfl⟩⟩

/-- Settles O40: both forms store to the effective address of their memory operand. -/
theorem storeInstructions : Obligations.StoreInstructions :=
  ⟨fun r1 vx => ⟨encodedAs_parts (.strRegRam r1 vx), storesByte_of_storeOp fun _ => rfl⟩,
    fun r1 r2 r3 => ⟨encodedAs_parts (.strRamreg r1 r2 r3), storesByte_of_storeOp fun _ => rfl⟩⟩

/-- Settles O41: IN is a register write of the port's byte, OUT a port write, whoever owns the port. -/
theorem portInstructions : Obligations.PortInstructions :=
  ⟨fun r1 v1 => ⟨encodedAs_parts (.inRegImm8 r1 v1), writesRegAndFlags_inOp (port := fun _ => v1) fun _ => rfl⟩,
    fun r1 r2 => ⟨encodedAs_parts (.inReg r1 r2), writesRegAndFlags_inOp (port := readReg r2) fun _ => rfl⟩,
    fun r1 v1 => ⟨encodedAs_parts (.outRegImm8 r1 v1), writesPort_of_portWrite fun _ => rfl⟩,
    fun r1 r2 => ⟨encodedAs_parts (.outReg r1 r2), writesPort_of_portWrite fun _ => rfl⟩⟩

/-- Settles O39: both forms move the byte at the effective address of their memory operand. -/
theorem loadInstructions : Obligations.LoadInstructions :=
  ⟨fun r1 vx => ⟨encodedAs_parts (.lodRegRam r1 vx), writesRegAndFlags_moveOp (.mem (.ram vx)) fun _ => rfl⟩,
    fun r1 r2 r3 => ⟨encodedAs_parts (.lodRamreg r1 r2 r3), writesRegAndFlags_moveOp (.mem (.ramreg r1 r2)) fun _ => rfl⟩⟩

end Sys2Proof.Machine

end

/-! SUPPORT. The system family: entering a handler is a run of three pushes and a jump through the vector table, returning from
one a run of three pops and a jump, and the second undoes the first where the pushes fit (spec 46_system.md). -/

section

namespace Sys2Proof.Machine

/-! ### The vector table -/

/-- The address of an IVT entry, as a number that wraps (46_system.md R223). -/
theorem vectorAddr_eq_ofNat (p : Byte) : vectorAddr p = BitVec.ofNat 16 (Config.ivtBase.toNat + 2 * p.toNat) := by
  simp only [vectorAddr, Config.params, Config.ivtBase]
  bv_omega

/-- The handler address is the number in the table (46_system.md R223). -/
theorem toNat_vectorOf (p : Byte) (s : State) : (vectorOf p s).toNat = handlerInTable p s := by
  rw [vectorOf, toNat_append_byte, vectorAddr_eq_ofNat, handlerInTable, BitVec.ofNat_add _ 1]
  rfl

/-! ### Entering a handler -/

/-- What entering a handler saves, in the order of the pushes: register I, then the return address (46_system.md R222). -/
def savedBytes (ret : Word) (s : State) : List Byte := [readReg .i s, ret.extractLsb' 8 8, ret.extractLsb' 0 8]

/-- The pushes of entering a handler are one run. -/
theorem pushWord_push_eq_pushAll (ret : Word) (s : State) :
    pushWord ret (push (readReg .i s) s) = pushAll (savedBytes ret s) s := rfl

/-- The vector is read after the pushes; nothing is stored after that (46_system.md R222). -/
theorem enterHandler_pc (ret : Word) (p : Byte) (s : State) :
    (enterHandler ret p s).pc = vectorOf p (enterHandler ret p s) := rfl

theorem enterHandler_flags (ret : Word) (p : Byte) (s : State) :
    (enterHandler ret p s).flags = { s.flags with carry := carryAfterPushing 3 s, interrupt := false, halt := false } := by
  obtain ⟨-, -, -, hflags, -⟩ := enterHandler_spec ret p s Config.params
  rw [hflags, pushWord_push_eq_pushAll, flags_pushAll]
  rfl

theorem stackAfterPushing_enterHandler (ret : Word) (p : Byte) (s : State) :
    StackAfterPushing (savedBytes ret s) s (enterHandler ret p s) :=
  stackAfterPushing_pushAll (savedBytes ret s) s

/-- Outside the stack, the PC and the flags, entering a handler changes nothing. -/
theorem enterHandler_frame (ret : Word) (p : Byte) (s : State) :
    SameRegs s (enterHandler ret p s) ∧ SamePorts s (enterHandler ret p s) ∧ SameFabric s (enterHandler ret p s) := by
  refine ⟨?registers, ?ports, ?fabric⟩
  case registers => exact fun r => readReg_enterHandler ret p s Config.params r
  case ports => simp [SamePorts, portRead]
  case fabric => simp [SameFabric]

/-- The CPU's half in interrupt management with the request down: the prologue (60_exceptions.md R277). -/
theorem cpuTick_of_service {s : State} (hman : s.cpuState = .interruptManagement) (hreq : s.intRequest = false) :
    cpuTick s = .next (clearJmp (interruptService s)) := by
  rcases cpuTick_cases s Config.params exec with ⟨hx, -⟩ | ⟨hx, -⟩ | ⟨hx, -⟩ | ⟨-, hup, -⟩ | ⟨-, -, e⟩
  · simp [hman] at hx
  · simp [hman] at hx
  · simp [hman] at hx
  · simp [hreq] at hup
  · exact e

/-! ### Returning from a handler -/

/-- After the word, the third byte is popped. -/
theorem pop_popWord_fst (s : State) : (pop (popWord s).2).1 = poppedByte s 2 := by
  simp only [popWord, pop_fst, poppedByte_pop, Nat.zero_add, Nat.reduceAdd]

theorem pop_popWord_snd_eq_popAll (s : State) : (pop (popWord s).2).2 = (popAll 3 s).2 := rfl

/-- Outside the register file, IRT is a run of three pops, then F.I set and a jump (46_system.md R224). -/
theorem returnFromHandler_eq_setRegs (s : State) : ∃ g, returnFromHandler s =
    jumpTo (popWord s).1 (((popAll 3 s).2.setRegs g).setFlags { (popAll 3 s).2.flags with interrupt := true }) := by
  obtain ⟨g, e⟩ := writeRegOpt_eq_setRegs .i (pop (popWord s).2).1 (pop (popWord s).2).2
  exact ⟨g, by rw [returnFromHandler_spec, e, pop_popWord_snd_eq_popAll, State.setRegs_flags]⟩

theorem returnFromHandler_pc (s : State) :
    (returnFromHandler s).pc = (poppedByte s 1).getD 0 ++ (poppedByte s 0).getD 0 :=
  popWord_fst s

/-- Register I is the third byte popped, or as before where there is none (46_system.md R224). -/
theorem readReg_i_returnFromHandler (s : State) :
    readReg .i (returnFromHandler s) = (poppedByte s 2).getD (readReg .i s) := by
  rw [returnFromHandler_spec, readReg_jumpTo, readReg_setFlags, readReg_writeRegOpt_same, pop_popWord_fst]
  simp [popWord]

theorem sameRegsBut_returnFromHandler (s : State) : SameRegsBut .i s (returnFromHandler s) := by
  intro r hr
  rw [returnFromHandler_spec, readReg_jumpTo, readReg_setFlags, sameRegsBut_writeRegOpt .i _ _ r hr]
  simp [popWord]

theorem stackAfterPopping_returnFromHandler (s : State) : StackAfterPopping 3 s (returnFromHandler s) := by
  obtain ⟨g, e⟩ := returnFromHandler_eq_setRegs s
  rw [e]
  exact stackAfterPopping_popAll 3 s

theorem returnFromHandler_flags (s : State) :
    (returnFromHandler s).flags = { s.flags with carry := carryAfterPopping 3 s, interrupt := true } := by
  obtain ⟨g, e⟩ := returnFromHandler_eq_setRegs s
  rw [e, jumpTo_flags, State.setFlags_flags, flags_popAll]

/-- IRT touches neither the ports nor the bus fabric (46_system.md R224). -/
theorem returnFromHandler_frame (s : State) :
    SamePorts s (returnFromHandler s) ∧ SameFabric s (returnFromHandler s) := by
  obtain ⟨g, e⟩ := returnFromHandler_eq_setRegs s
  rw [e]
  refine ⟨?ports, ?fabric⟩
  case ports => simp [SamePorts, popAll]
  case fabric => simp [SameFabric, popAll]

/-! ### Back from a handler that changed register I -/

section inHandler

variable (ret : Word) (p x : Byte) (s : State)

/-- In the handler the stack is as the pushes left it: neither the jump nor the register write touches it. -/
theorem poppedByte_inHandler (k : Nat) :
    poppedByte (writeReg .i x (enterHandler ret p s)) k = poppedByte (pushAll (savedBytes ret s) s) k := rfl

theorem carryAfterPopping_inHandler (n : Nat) :
    carryAfterPopping n (writeReg .i x (enterHandler ret p s)) = carryAfterPopping n (pushAll (savedBytes ret s) s) := rfl

theorem stackAfterPopping_inHandler {n : Nat} {u : State} :
    StackAfterPopping n (writeReg .i x (enterHandler ret p s)) u ↔ StackAfterPopping n (pushAll (savedBytes ret s) s) u :=
  Iff.rfl

end inHandler

/-- The pops from a state determine pointer and latch. -/
theorem StackAfterPopping.sameStack {n : Nat} {s t u : State} (ht : StackAfterPopping n s t) (hu : StackAfterPopping n s u) :
    SameStack t u := by
  obtain ⟨htsp, htfull, -⟩ := ht
  obtain ⟨husp, hufull, -⟩ := hu
  exact ⟨husp.trans htsp.symm, hufull.trans htfull.symm⟩

section fits

variable {s : State} (ret : Word)

/-- Where the three bytes fit, the pops give the return address, low byte first, and then register I. -/
theorem poppedByte_saved (h : 3 ≤ stackFree s) :
    poppedByte (pushAll (savedBytes ret s) s) 0 = some (ret.extractLsb' 0 8) ∧
      poppedByte (pushAll (savedBytes ret s) s) 1 = some (ret.extractLsb' 8 8) ∧
      poppedByte (pushAll (savedBytes ret s) s) 2 = some (readReg .i s) := by
  obtain ⟨hbytes, -⟩ := stackIsLastInFirstOut (savedBytes ret s) s h
  simpa [savedBytes, popAll, pop_fst, poppedByte_pop] using hbytes

/-- Where the three bytes fit, three pops lead back to pointer and latch. -/
theorem sameStack_of_popping_saved (h : 3 ≤ stackFree s) {u : State}
    (hu : StackAfterPopping 3 (pushAll (savedBytes ret s) s) u) : SameStack s u := by
  obtain ⟨-, hsp, hfull, -⟩ := stackIsLastInFirstOut (savedBytes ret s) s h
  obtain ⟨husp, hufull⟩ := (stackAfterPopping_popAll 3 (pushAll (savedBytes ret s) s)).sameStack hu
  exact ⟨husp.trans hsp, hufull.trans hfull⟩

/-- Where the three bytes fit, neither a push nor a pop fails. -/
theorem carryAfterPopping_saved (h : 3 ≤ stackFree s) :
    carryAfterPopping 3 (pushAll (savedBytes ret s) s) = s.flags.carry := by
  obtain ⟨-, -, -, hflags⟩ := stackIsLastInFirstOut (savedBytes ret s) s h
  exact (congrArg Flags.carry (flags_popAll 3 _)).symm.trans (congrArg Flags.carry hflags)

end fits

/-- IRT in a handler that changed register I goes back to the return address with every register restored (46_system.md R222,
R224). -/
theorem returnFromHandler_inHandler_spec (ret : Word) (p x : Byte) {s u : State} (h : 3 ≤ stackFree s)
    (hu : returnFromHandler (writeReg .i x (enterHandler ret p s)) = u) :
    u.pc = ret ∧ SameStack s u ∧ SameRegs s u ∧ u.flags = { s.flags with interrupt := true, halt := false } := by
  obtain ⟨hlo, hhi, hI⟩ := poppedByte_saved ret h
  subst hu
  refine ⟨?pc, ?stack, ?registers, ?flags⟩
  case pc =>
    simp only [returnFromHandler_pc, poppedByte_inHandler, hlo, hhi, Option.getD_some]
    exact extract_append_word ret
  case stack =>
    exact sameStack_of_popping_saved ret h
      ((stackAfterPopping_inHandler ret p x s).1 (stackAfterPopping_returnFromHandler _))
  case registers =>
    intro r
    by_cases hr : r = .i
    · rw [hr, readReg_i_returnFromHandler, poppedByte_inHandler, hI, Option.getD_some]
    · rw [sameRegsBut_returnFromHandler _ r hr, readReg_writeReg_other hr, readReg_enterHandler]
  case flags =>
    rw [returnFromHandler_flags, carryAfterPopping_inHandler, carryAfterPopping_saved ret h, writeReg_flags, enterHandler_flags]

/-! ### The obligations -/

/-- Settles O12: INT and the prologue both enter the handler by `enterHandler`, and store nothing after reading the vector. -/
theorem handlerAddressFromVectorTable : Obligations.HandlerAddressFromVectorTable := by
  refine ⟨?int, ?prologue⟩
  case int =>
    intro p s t h
    obtain rfl : enterHandler (nextPc s) p s = t := Host.Outcome.next.inj h
    rw [enterHandler_pc, toNat_vectorOf]
  case prologue =>
    intro s t hman hreq h
    obtain rfl : clearJmp (interruptService s) = t := Host.Outcome.next.inj ((cpuTick_of_service hman hreq).symm.trans h)
    exact toNat_vectorOf _ (enterHandler s.pc (s.addrBus.extractLsb' 0 8) s)

/-- Settles O37: the three bytes that INT saved are the three that IRT pops. -/
theorem softwareInterruptThenReturn : Obligations.SoftwareInterruptThenReturn :=
  fun s p x h => ⟨_, _, rfl, rfl, returnFromHandler_inHandler_spec (nextPc s) p x h rfl⟩

/-- Settles O44: INT enters the handler with the address of the next instruction; F.I is not read. -/
theorem softwareInterrupt : Obligations.SoftwareInterrupt :=
  fun v1 => ⟨encodedAs_parts (.intImm8 v1), fun s =>
    ⟨enterHandler (nextPc s) v1 s, rfl, stackAfterPushing_enterHandler (nextPc s) v1 s, enterHandler_flags (nextPc s) v1 s,
      enterHandler_pc (nextPc s) v1 s, enterHandler_jmp (nextPc s) v1 s Config.params, enterHandler_frame (nextPc s) v1 s⟩⟩

/-- Settles O45: IRT's pops are a run of three, whose bytes make the PC and register I. -/
theorem returnFromInterrupt : Obligations.ReturnFromInterrupt :=
  ⟨encodedAs_parts .irt, fun s =>
    ⟨returnFromHandler s, rfl, returnFromHandler_pc s, rfl, readReg_i_returnFromHandler s, sameRegsBut_returnFromHandler s,
      stackAfterPopping_returnFromHandler s, returnFromHandler_flags s, returnFromHandler_frame s⟩⟩

/-- Settles O43: NOP answers the state itself, HLT the state with two flags written. -/
theorem nopAndHalt : Obligations.NopAndHalt :=
  ⟨encodedAs_parts .nop, rfl, encodedAs_parts .hlt, fun _ => ⟨rfl, rfl⟩⟩

end Sys2Proof.Machine

end

/-! SUPPORT. The flag family: the mnemonics that can write F.H, the one form that each of them has, and the fourteen instructions
that write one other flag (spec 47_flag_ops.md). -/

section

namespace Sys2Proof.Machine

/-! ### Mnemonics with one form -/

/-- HLT is the only form of its mnemonic (30_encoding.md R79). -/
theorem eq_hlt_of_op {i : Instr} (h : i.parts.1 = .hlt) : i = .hlt := by
  have hform := formOf_of_heldBy i.heldBy_ownFields
  rw [h] at hform
  exact (bareForm_eq_some_iff.1 hform).2.symm

/-- INT with its byte is the only form of its mnemonic (30_encoding.md R79). -/
theorem eq_intImm8_of_op {i : Instr} (h : i.parts.1 = .int) : ∃ v1, i = .intImm8 v1 := by
  have hform := formOf_of_heldBy i.heldBy_ownFields
  rw [h] at hform
  exact ⟨_, (oneByteForm_eq_some_iff.1 hform).2.symm⟩

/-! ### The writers of F.H -/

/-- Of the kinds of write, only halting sets F.H and only entering a handler clears it. -/
theorem Effect.halt_eq_or {s t : State} {o : Op} (h : Effect s o t) :
    t.flags.halt = s.flags.halt ∨ (o = .hlt ∧ t.flags.halt = true) ∨ (o = .int ∧ t.flags.halt = false) := by
  cases h with
  | compute _ _ _ hH => left; exact hH
  | interruptReturn _ _ _ _ hH => left; exact hH
  | store | out | jump => left; rfl
  | push | call => left; simp [pushWord, push_flags]
  | pop | ret => left; simp [pop_flags]
  | halt => right; left; exact ⟨rfl, rfl⟩
  | interrupt p => right; right; exact ⟨rfl, enterHandler_halt (nextPc s) p s⟩

/-! ### The obligations -/

/-- Settles O57: the effect of the instruction's mnemonic writes F.H only for HLT and INT, and each of these has one form. -/
theorem haltFlagWriters : Obligations.HaltFlagWriters := by
  intro i s t hexec hchanged
  obtain hkept | ⟨hop, hset⟩ | ⟨hop, hcleared⟩ := (effect_of_exec hexec).halt_eq_or
  · exact absurd hkept hchanged
  · exact .inl ⟨eq_hlt_of_op hop, hset⟩
  · obtain ⟨v1, hi⟩ := eq_intImm8_of_op hop
    exact .inr ⟨v1, hi, hcleared⟩

/-- Settles O46: the seven words carry the codes of their forms, and each meaning is the `flagOp` that clears its flag. -/
theorem flagClears : Obligations.FlagClears :=
  ⟨encodedAs_parts .clc, encodedAs_parts .cle, encodedAs_parts .clf, encodedAs_parts .cli, encodedAs_parts .cln,
    encodedAs_parts .cls, encodedAs_parts .clz, fun _ => ⟨rfl, rfl, rfl, rfl, rfl, rfl, rfl⟩⟩

/-- Settles O47: the seven words carry the codes of their forms, and each meaning is the `flagOp` that sets its flag. -/
theorem flagSets : Obligations.FlagSets :=
  ⟨encodedAs_parts .stc, encodedAs_parts .ste, encodedAs_parts .stf, encodedAs_parts .sti, encodedAs_parts .stn,
    encodedAs_parts .sts, encodedAs_parts .stz, fun _ => ⟨rfl, rfl, rfl, rfl, rfl, rfl, rfl⟩⟩

end Sys2Proof.Machine

end

/-! SUPPORT. The exceptions family: the IOD's half by the state of the ready line and the queue, the CPU's half by what it is doing,
and port blocks on numbers (spec 60_exceptions.md). -/

section

namespace Sys2Proof.Machine

/-! ### The IOD's half -/

section iodHalf

variable {s : State}

theorem iodTick_of_not_ready (h : s.intReady = false) : iodTick s = s.setIntRequest (!s.irqQueue.isEmpty) := by
  simp [iodTick, h]

theorem iodTick_of_ready_nil (h : s.intReady = true) (hq : s.irqQueue = []) : iodTick s = s.setIntRequest false := by
  simp [iodTick, deliver, h, hq]

theorem iodTick_of_ready_cons {r : IrqRecord} {rest : List IrqRecord} (h : s.intReady = true) (hq : s.irqQueue = r :: rest) :
    iodTick s = ((s.setIntRequest false).setIrqQueue rest).setBuses (r.port.setWidth 16) r.data := by
  simp [iodTick, deliver, h, hq]

/-- A CPU in interrupt management sees the request dropped, whatever is queued (60_exceptions.md R270). -/
theorem iodTick_intRequest_of_ready (h : s.intReady = true) : (iodTick s).intRequest = false := by
  cases hq : s.irqQueue with
  | nil => simp [iodTick_of_ready_nil h hq]
  | cons r rest => simp [iodTick_of_ready_cons h hq]

theorem setIntRequest_of_eq {v : Bool} (h : s.intRequest = v) : s.setIntRequest v = s := by
  rw [← h]; rfl

/-- With nothing queued and no request the IOD does nothing, ready line or not (60_exceptions.md R270, R272). -/
theorem iodTick_of_idle (hq : s.irqQueue = []) (hreq : s.intRequest = false) : iodTick s = s := by
  cases h : s.intReady with
  | false => rw [iodTick_of_not_ready h, hq]; exact setIntRequest_of_eq hreq
  | true => rw [iodTick_of_ready_nil h hq]; exact setIntRequest_of_eq hreq

end iodHalf

section iodReads

variable (s : State)

@[simp] theorem readReg_iodTick (r : Reg) : readReg r (iodTick s) = readReg r s := by simp [readReg]
@[simp] theorem memRead_iodTick (a : Word) : memRead a (iodTick s) = memRead a s := by simp [memRead]
@[simp] theorem portRead_iodTick (p : Byte) : portRead p (iodTick s) = portRead p s := by simp [portRead]

end iodReads

/-! ### The CPU's half -/

/-- Entry, tick 1: the interrupt test comes first, so F.H does not matter (60_exceptions.md R275, R276). -/
theorem cpuTick_of_entry {s : State} (hexec : s.cpuState = .instructionExec) (hI : s.flags.interrupt = true)
    (hreq : s.intRequest = true) : cpuTick s = .next (clearJmp (enterManagement s)) := by
  rcases cpuTick_cases s Config.params exec with ⟨-, -, -, e⟩ | ⟨-, hno, -⟩ | ⟨-, hno, -⟩ | ⟨hman, -⟩ | ⟨hman, -⟩
  · exact e
  · exact absurd ⟨hI, hreq⟩ hno
  · exact absurd ⟨hI, hreq⟩ hno
  · simp [hexec] at hman
  · simp [hexec] at hman

/-- In interrupt management the CPU waits while the request stands (60_exceptions.md R277). -/
theorem cpuTick_of_wait {s : State} (hman : s.cpuState = .interruptManagement) (hreq : s.intRequest = true) :
    cpuTick s = .next (clearJmp s) := by
  rcases cpuTick_cases s Config.params exec with ⟨hx, -⟩ | ⟨hx, -⟩ | ⟨hx, -⟩ | ⟨-, -, e⟩ | ⟨-, hdown, -⟩
  · simp [hman] at hx
  · simp [hman] at hx
  · simp [hman] at hx
  · exact e
  · simp [hreq] at hdown

/-- The part of the bus fabric that fetching leaves alone too: everything of it but the instruction register. -/
def SameBoard (s t : State) : Prop :=
  t.cpuState = s.cpuState ∧ t.intReady = s.intReady ∧ t.intRequest = s.intRequest ∧ t.addrBus = s.addrBus ∧
    t.dataBus = s.dataBus ∧ t.irqQueue = s.irqQueue ∧ t.portOwner = s.portOwner

theorem SameBoard.trans {s t u : State} (hst : SameBoard s t) (htu : SameBoard t u) : SameBoard s u := by
  simp_all [SameBoard]

theorem sameBoard_advancePc (s : State) : SameBoard s (advancePc s) := by
  unfold advancePc
  split <;> simp [SameBoard]

/-- Every word that is run answers next, and touches the board no more than an instruction does (40_execution_cycle.md R105,
60_exceptions.md R271). -/
theorem runInstr_sameBoard (s : State) : ∃ t, runInstr s = .next t ∧ SameBoard s t := by
  rcases runInstr_cases s Config.params exec with ⟨i, -, e⟩ | ⟨-, -, e⟩
  · obtain ⟨u, hu, eff⟩ := exec_effect i (fetchInstr s)
    obtain ⟨hcpu, -, -, hready, hreq, haddr, hdata, hqueue, howner⟩ := eff.sameFabric
    have hboard : SameBoard s u := ⟨hcpu, hready, hreq, haddr, hdata, hqueue, howner⟩
    exact ⟨advancePc u, by rw [e, hu, onNext_next], hboard.trans (sameBoard_advancePc u)⟩
  · exact ⟨_, e, sameBoard_advancePc (fetchInstr s)⟩

/-! ### Three ticks from a trigger to its handler -/

theorem triggerInterrupt_of_room {p : Byte} {s : State} (h : s.irqQueue.length < Config.irqQueueCapacity) :
    triggerInterrupt p s = s.setIrqQueue (s.irqQueue ++ [{ port := p, data := portRead p s }]) := by
  rcases triggerInterrupt_cases p s Config.params with ⟨-, e⟩ | ⟨hfull, -⟩
  · exact e
  · exact absurd h (Nat.not_lt.2 hfull)

theorem triggerInterrupt_of_no_room {p : Byte} {s : State} (h : Config.irqQueueCapacity ≤ s.irqQueue.length) :
    triggerInterrupt p s = s := by
  rcases triggerInterrupt_cases p s Config.params with ⟨hroom, -⟩ | ⟨-, e⟩
  · exact absurd hroom (Nat.not_lt.2 h)
  · exact e

@[simp] theorem triggerInterrupt_intReady (p : Byte) (s : State) : (triggerInterrupt p s).intReady = s.intReady := by
  rcases triggerInterrupt_cases p s Config.params with ⟨-, e⟩ | ⟨-, e⟩ <;> simp [e]

@[simp] theorem triggerInterrupt_portOwner (p : Byte) (s : State) : (triggerInterrupt p s).portOwner = s.portOwner := by
  rcases triggerInterrupt_cases p s Config.params with ⟨-, e⟩ | ⟨-, e⟩ <;> simp [e]

/-- After a trigger a record is queued: the new one, or those that left it no room (60_exceptions.md R268). -/
theorem irqQueue_triggerInterrupt_ne_nil (p : Byte) (s : State) : (triggerInterrupt p s).irqQueue ≠ [] := by
  rcases triggerInterrupt_cases p s Config.params with ⟨-, e⟩ | ⟨hfull, e⟩
  · simp [e]
  · rw [e]
    exact List.ne_nil_of_length_pos (Nat.lt_of_lt_of_le (by decide) hfull)

/-- A run of `k + 1` steps is one step and then `k`. -/
theorem run_succ_of_step {M : Host.Core} {s t : M.State} (h : M.step s = .next t) (k : Nat) : M.run (k + 1) s = M.run k t := by
  rw [Host.Core.run, h]

/-- A halted idle state with one record of port `p` queued and requested. -/
def requestedBy (p : Byte) (s : State) : State :=
  ((s.setIrqQueue [{ port := p, data := portRead p s }]).setJmp false).setIntRequest true

/-- On a halted idle CPU the tick after a trigger raises the request and does nothing else (60_exceptions.md R268, R270). -/
theorem step_triggerInterrupt_of_idle (p : Byte) {s : State} (hexec : s.cpuState = .instructionExec) (hH : s.flags.halt = true)
    (hq : s.irqQueue = []) (hreq : s.intRequest = false) (hready : s.intReady = false) :
    step (triggerInterrupt p s) = .next (requestedBy p s) := by
  rw [triggerInterrupt_of_room (by rw [hq]; decide), hq, List.nil_append]
  exact step_eq_next.2 ⟨_, haltedTickChangesNothing _ hexec hH (by simp [hreq]), iodTick_of_not_ready hready⟩

/-- In instruction execution the invariant says that the ready line is down (60_exceptions.md R275, R277). -/
theorem State.Inv.not_ready {s : State} (h : s.Inv) (hexec : s.cpuState = .instructionExec) : s.intReady = false := by
  rw [← Bool.not_eq_true, h.readyIffManaging, hexec]
  decide

/-- The pushes' closed form reads memory, pointer and latch of the state they start from, and nothing else of it. -/
theorem StackAfterPushing.of_start {bytes : List Byte} {s s' t : State} (h : StackAfterPushing bytes s' t)
    (hmem : SameMem s s') (hstack : SameStack s s') : StackAfterPushing bytes s t := by
  obtain ⟨hsp, hfull⟩ := hstack
  have hread : ∀ a, memRead a s' = memRead a s := hmem
  have hfree : stackFree s' = stackFree s := by rw [stackFree, stackFree, hsp, hfull]
  have hslot : ∀ k, pushSlot s' k = pushSlot s k := fun k => by rw [pushSlot, pushSlot, hsp]
  simpa only [StackAfterPushing, hfree, hslot, hsp, hfull, hread] using h

/-- The port number on the address bus is read back (60_exceptions.md R270, R277). -/
theorem port_of_addrBus (p : Byte) : (p.setWidth 16).extractLsb' 0 8 = p := by
  rw [BitVec.extractLsb'_setWidth_of_le (by decide), BitVec.extractLsb'_eq_self]

/-! ### Port blocks on numbers -/

section blocks

variable {s : State} {b count : Nat}

/-- The test that the scan makes at each start is that the block is free (60_exceptions.md R264). -/
theorem isFreeBlock_iff :
    IsFreeBlock s b count ↔ (decide (b + count ≤ Config.portCount) && blockFree b count s) = true := by
  rw [Bool.and_eq_true, decide_eq_true_iff, blockFree_iff]
  refine and_congr_right fun _ => ⟨fun h k hk => h _ (by omega) (by omega), fun h p hp hlt => ?_⟩
  obtain ⟨k, rfl⟩ := Nat.exists_eq_add_of_le hp
  exact h k (by omega)

/-- A block of at least one port starts inside the table. -/
theorem IsFreeBlock.start_lt (h : IsFreeBlock s b count) (hcount : count ≠ 0) : b < Config.portCount := by
  obtain ⟨hin, -⟩ := h
  show b < 256
  omega

/-- The scan finds the least start of a free block (60_exceptions.md R264). -/
theorem firstFreeBlock_eq_some (hcount : count ≠ 0) (hfree : IsFreeBlock s b count) (hleast : ∀ c < b, ¬ IsFreeBlock s c count) :
    firstFreeBlock count s = some b := by
  refine List.find?_range_eq_some.2 ⟨isFreeBlock_iff.1 hfree, List.mem_range.2 (hfree.start_lt hcount), fun c hc => ?_⟩
  simpa only [isFreeBlock_iff, Bool.not_eq_true, Bool.not_eq_true'] using hleast c hc

theorem firstFreeBlock_eq_none (h : ∀ b, ¬ IsFreeBlock s b count) : firstFreeBlock count s = none :=
  List.find?_range_eq_none.2 fun b _ => by
    simpa only [isFreeBlock_iff, Bool.not_eq_true, Bool.not_eq_true'] using h b

variable {dev : DeviceId}

theorem requestPorts_of_firstFit (hdev : dev ≠ 0) (hcount : count ≠ 0) (hfree : IsFreeBlock s b count)
    (hleast : ∀ c < b, ¬ IsFreeBlock s c count) :
    requestPorts dev count s =
      ((List.range count).map fun k => BitVec.ofNat 8 (b + k), s.setPortOwner (claimBlock dev b count s.portOwner)) := by
  have hfits : ¬ count > Config.portCount := by
    obtain ⟨hin, -⟩ := hfree
    show ¬ count > 256
    omega
  rw [requestPorts, if_neg (by simp [hdev, hcount, hfits]), firstFreeBlock_eq_some hcount hfree hleast]

theorem requestPorts_of_failure (h : dev = 0 ∨ count = 0 ∨ ∀ b, ¬ IsFreeBlock s b count) :
    requestPorts dev count s = ([], s) := by
  rcases requestPorts_cases dev count s with e | ⟨b, hdev, hcount, hfound, -⟩
  · exact e
  · have hfree : IsFreeBlock s b count := isFreeBlock_iff.2 (by simpa using firstFreeBlock_some hfound)
    obtain h | h | h := h
    · exact absurd h hdev
    · exact absurd h hcount
    · exact absurd hfree (h b)

end blocks

/-! ### The obligations -/

/-- Settles O10: the CPU's half raises the ready line, and the IOD's half of the same tick delivers. -/
theorem interruptEntryFirstTick : Obligations.InterruptEntryFirstTick := by
  intro s hexec hI hreq
  refine ⟨_, step_eq_next.2 ⟨_, cpuTick_of_entry hexec hI hreq, rfl⟩, ?cpu, ?ready, iodTick_intRequest_of_ready rfl, ?record,
    ?empty, ?frame⟩
  case cpu => exact iodTick_cpuState _
  case ready => exact iodTick_intReady _
  case record =>
    intro r rest hq
    rw [iodTick_of_ready_cons (s := clearJmp (enterManagement s)) rfl hq]
    exact ⟨rfl, rfl, rfl⟩
  case empty =>
    intro hq
    rw [iodTick_of_ready_nil (s := clearJmp (enterManagement s)) rfl hq]
    exact ⟨hq, rfl, rfl⟩
  case frame => simp [clearJmp, enterManagement, SameRegs, SameStack, SameMem, SamePorts]

/-- Settles O11: the waiting CPU only clears the marker; the prologue is `enterHandler` for the port on the address bus, and the
parameter adds one register write. -/
theorem interruptPrologue : Obligations.InterruptPrologue := by
  refine ⟨fun s => cpuTick_of_wait, fun s P => rfl, ?prologue⟩
  case prologue =>
    intro s hman hdown
    obtain ⟨hregs, hports, -, hir, hmode, -, hreq, haddr, hdata, hqueue, howner⟩ :=
      enterHandler_frame s.pc (s.addrBus.extractLsb' 0 8) s
    exact ⟨_, cpuTick_of_service hman hdown, stackAfterPushing_enterHandler s.pc (s.addrBus.extractLsb' 0 8) s,
      enterHandler_flags s.pc (s.addrBus.extractLsb' 0 8) s, enterHandler_pc s.pc (s.addrBus.extractLsb' 0 8) s, rfl, rfl, rfl,
      hregs, hports, hir, hmode, hreq, haddr, hdata, hqueue, howner⟩

/-- Settles O13: the halted tick raises the request, the entry tick delivers the record, and the prologue enters the handler with
nothing left for the IOD to do. -/
theorem interruptWakesHaltedCpu : Obligations.InterruptWakesHaltedCpu := by
  intro s p hinv hexec hH hq hreq
  have hraise := step_triggerInterrupt_of_idle p hexec hH hq hreq (hinv.not_ready hexec)
  obtain ⟨u, hentry, hman, -, hdown, hrecord, -, hregs, -, hpc, -, hstack, -, -, hmem, -⟩ :=
    interruptEntryFirstTick (requestedBy p s) hexec (hinv.haltCanWake hH) rfl
  obtain ⟨hempty, haddr, hdata⟩ := hrecord _ _ rfl
  obtain ⟨-, -, hprologue⟩ := interruptPrologue
  obtain ⟨t, hserve, hpush, htflags, htpc, -, htready, htexec, htregs, -, -, -, htreq, htaddr, htdata, htqueue, -⟩ :=
    hprologue u hman hdown
  have hservice : step u = .next t :=
    step_eq_next.2 ⟨t, hserve, iodTick_of_idle (htqueue.trans hempty) (htreq.trans hdown)⟩
  refine ⟨t, ?run, ?pc, ?I, ?H, htexec, htready, ?registers, ?pushed, htaddr.trans haddr, htdata.trans hdata,
    htqueue.trans hempty⟩
  case run => exact (run_succ_of_step hraise 2).trans ((run_succ_of_step hentry 1).trans (run_succ_of_step hservice 0))
  case pc => rw [htpc, haddr, port_of_addrBus]
  case I => rw [htflags]
  case H => rw [htflags]
  case registers => exact fun r => (htregs r).trans (hregs r)
  case pushed =>
    rw [hregs .i, hpc] at hpush
    exact hpush.of_start hmem hstack

/-- Settles O14: with F.I = 0 the invariant says that the CPU is not halted, so its half runs one word, and the IOD's half finds it
not ready. -/
theorem maskedInterruptIsNotServed : Obligations.MaskedInterruptIsNotServed := by
  intro s t hinv hexec hI hstep
  have hH : s.flags.halt = false := by
    rw [← Bool.not_eq_true]; exact fun hH => by simp [hinv.haltCanWake hH] at hI
  have hready := hinv.not_ready hexec
  obtain ⟨u, hrun, hcpu, huready, -, -, -, hqueue, -⟩ := runInstr_sameBoard s
  have htick : cpuTick s = .next (clearJmp u) := by
    rw [cpuTick_of_willFetch (by simp [State.willFetch, hexec, hI, hH]), hrun, onNext_next]
  obtain ⟨v, hv, rfl⟩ := step_eq_next.1 hstep
  obtain rfl : clearJmp u = v := Host.Outcome.next.inj (htick.symm.trans hv)
  rw [iodTick_of_not_ready (s := clearJmp u) (huready.trans hready)]
  exact ⟨hcpu.trans hexec, hqueue, huready.trans hready, by simp [clearJmp, hqueue]⟩

/-- Settles O49: the scan finds the least free block where there is one, and the claim writes exactly its owners. -/
theorem portRequestFirstFit : Obligations.PortRequestFirstFit := by
  refine fun dev count s => ⟨fun b hdev hcount hfree hleast => ?_, requestPorts_of_failure, rfl⟩
  rw [requestPorts_of_firstFit hdev hcount hfree hleast]
  exact ⟨rfl, lookup_claimBlock dev b count s.portOwner, rfl⟩

/-- Settles O15. -/
theorem iodTickRaisesOrDelivers : Obligations.IodTickRaisesOrDelivers := by
  refine fun s => ⟨fun h => ?_, iodTick_of_ready_nil, fun r rest => iodTick_of_ready_cons⟩
  rw [iodTick_of_not_ready h]
  cases s.irqQueue <;> rfl

/-- Settles O16. -/
theorem triggerQueuesOrDrops : Obligations.TriggerQueuesOrDrops := by
  refine fun p s => ⟨triggerInterrupt_of_room, triggerInterrupt_of_no_room, fun h => ?_⟩
  rw [iodTick_of_not_ready ((triggerInterrupt_intReady p s).trans h), State.setIntRequest_intRequest]
  simpa using irqQueue_triggerInterrupt_ne_nil p s

/-- Settles O51. -/
theorem snapshotChangesNothing : Obligations.SnapshotChangesNothing :=
  fun s => ⟨snapshot s, rfl, rfl, rfl, rfl, rfl, rfl, rfl, rfl, rfl⟩

end Sys2Proof.Machine

end

/-! SUPPORT. The reset and session family: every tick answers, what an image leaves, and everything an action of the environment can
make of a session, said once as a relation with one case per kind of change (spec 70_reset_and_hazards.md, 60_exceptions.md R283). -/

section

namespace Sys2Proof.Machine

/-! ### Every tick is defined -/

/-- The CPU's half always answers next, and never writes the owner table (60_exceptions.md R267, 70_reset_and_hazards.md R314). -/
theorem cpuTick_portOwner (s : State) : ∃ t, cpuTick s = .next t ∧ t.portOwner = s.portOwner := by
  rcases cpuTick_cases s Config.params exec with
    ⟨-, -, -, e⟩ | ⟨-, -, -, e⟩ | ⟨-, -, -, e⟩ | ⟨-, -, e⟩ | ⟨-, -, e⟩
  · exact ⟨_, e, rfl⟩
  · exact ⟨_, e, rfl⟩
  · obtain ⟨u, hu, -, -, -, -, -, -, howner⟩ := runInstr_sameBoard s
    exact ⟨clearJmp u, by rw [e, hu, onNext_next], howner⟩
  · exact ⟨_, e, rfl⟩
  · exact ⟨_, e, by simp [clearJmp, interruptService_eq]⟩

theorem step_portOwner (s : State) : ∃ t, step s = .next t ∧ t.portOwner = s.portOwner := by
  obtain ⟨u, hu, howner⟩ := cpuTick_portOwner s
  exact ⟨iodTick u, step_eq_next.2 ⟨u, hu, rfl⟩, by rw [iodTick_portOwner, howner]⟩

theorem portOwner_of_step {s t : State} (h : step s = .next t) : t.portOwner = s.portOwner := by
  obtain ⟨u, hu, howner⟩ := step_portOwner s
  obtain rfl : u = t := Host.Outcome.next.inj (hu.symm.trans h)
  exact howner

theorem State.ended_iff {s : State} :
    s.ended = true ↔ s.cpuState = .instructionExec ∧ s.flags.halt = true ∧ s.irqQueue = [] ∧ s.intRequest = false := by
  simp [State.ended, and_assoc]

/-! ### Loading an image -/

/-- The state that `init` leaves: the reset state with an image and the owners that the session had (70_reset_and_hazards.md R300,
R302, R303). -/
def loadedState (image : List Byte) (owners : PortTable DeviceId) : State :=
  (State.reset.setMem (Memory.ofImage image)).setPortOwner owners

theorem initBoard_of_size {image : List Byte} (h : image.length = Config.memSize) (s : State) :
    initBoard image s = some (loadedState image s.portOwner) := by
  rcases initBoard_cases image s Config.params with ⟨-, e⟩ | ⟨hne, -⟩
  · rw [e]; rfl
  · exact absurd h hne

theorem initBoard_of_wrong_size {image : List Byte} (h : image.length ≠ Config.memSize) (s : State) :
    initBoard image s = none := by
  rcases initBoard_cases image s Config.params with ⟨heq, -⟩ | ⟨-, e⟩
  · exact absurd heq h
  · exact e

/-- `init` of a whole image answers alike before the first one and after it (70_reset_and_hazards.md R300). -/
theorem act_init_of_size {image : List Byte} (h : image.length = Config.memSize) (x : Session) :
    x.act (.init image) = .next (.running (loadedState image x.portOwner), .done) := by
  cases x with
  | beforeInit owners => simp only [Session.act, actBeforeInit, initBoard_of_size h]; rfl
  | running s => simp only [Session.act, actRunning, initBoard_of_size h]; rfl

/-- A failed `init` changes nothing (70_reset_and_hazards.md R301). -/
theorem act_init_of_wrong_size {image : List Byte} (h : image.length ≠ Config.memSize) (x : Session) :
    x.act (.init image) = .next (x, .failed) := by
  cases x with
  | beforeInit owners => simp only [Session.act, actBeforeInit, initBoard_of_wrong_size h]
  | running s => simp only [Session.act, actRunning, initBoard_of_wrong_size h]

/-- Byte `k` of the image is at address `k` (20_memory.md R53). -/
theorem memRead_loadedState (image : List Byte) (owners : PortTable DeviceId) (a : Word) :
    memRead a (loadedState image owners) = image.getD a.toNat 0 := by
  have h := lookup_tableOf (d := Memory.unlisted) 0 a.toNat image
  rwa [Nat.zero_add] at h

theorem loadedState_resetFromImage {image : List Byte} (h : image.length = Config.memSize) (owners : PortTable DeviceId) :
    ResetFromImage image owners (loadedState image owners) :=
  ⟨memRead_loadedState image owners, Memory.wf_ofImage h, readReg_reset, rfl, rfl, rfl, rfl, rfl, rfl, rfl, rfl, rfl, rfl, rfl,
    rfl, fun _ => rfl, rfl, rfl⟩

theorem loadedState_inv {image : List Byte} (h : image.length = Config.memSize) {owners : PortTable DeviceId}
    (howners : owners.wfOwner = true) : (loadedState image owners).Inv where
  __ := resetMeetsInvariant
  memWf := Memory.wf_ofImage h
  portOwnerWf := howners

/-! ### What an action can do -/

/-- The session with another owner table. -/
def Session.withPortOwner (x : Session) (owners : PortTable DeviceId) : Session :=
  match x with
  | .beforeInit _ => .beforeInit owners
  | .running s => .running (s.setPortOwner owners)

@[simp] theorem portOwner_withPortOwner (x : Session) (owners : PortTable DeviceId) :
    (x.withPortOwner owners).portOwner = owners := by
  cases x <;> rfl

/-- Everything an action that answers next can make of a session: one constructor for each kind of change. -/
inductive Session.Acted : Session → Session → Prop
  | same (x : Session) : Acted x x
  | load (x : Session) (image : List Byte) (hsize : image.length = Config.memSize) :
      Acted x (.running (loadedState image x.portOwner))
  /-- A block of unassigned ports inside the table is claimed, before `init` or after it (60_exceptions.md R264, R306). -/
  | claim (x : Session) (dev : DeviceId) (first count : Nat) (hin : first + count ≤ Config.portCount)
      (hfree : ∀ p, first ≤ p → p < first + count → x.ownerOf p = 0) :
      Acted x (x.withPortOwner (claimBlock dev first count x.portOwner))
  | tick {s t : State} (h : step s = .next t) : Acted (.running s) (.running t)
  | memory (s : State) (a : Word) (v : Byte) : Acted (.running s) (.running (memWrite a v s))
  | port (s : State) (p v : Byte) : Acted (.running s) (.running (portWrite p v s))
  | trigger (s : State) (p : Byte) : Acted (.running s) (.running (triggerInterrupt p s))

/-- A port request changes nothing, or claims a free block inside the table (60_exceptions.md R264, R266). -/
theorem requestPorts_snd_cases (dev : DeviceId) (count : Nat) (s : State) :
    (requestPorts dev count s).2 = s ∨
      ∃ b, IsFreeBlock s b count ∧ (requestPorts dev count s).2 = s.setPortOwner (claimBlock dev b count s.portOwner) := by
  rcases requestPorts_cases dev count s with e | ⟨b, -, -, hfound, e⟩
  · exact .inl (by rw [e])
  · exact .inr ⟨b, isFreeBlock_iff.2 (by simpa using firstFreeBlock_some hfound), by rw [e]⟩

theorem acted_of_act_init {image : List Byte} {x y : Session} {reply : EnvReply} (h : x.act (.init image) = .next (y, reply)) :
    x.Acted y := by
  by_cases hsize : image.length = Config.memSize
  · rw [act_init_of_size hsize] at h
    cases h
    exact .load x image hsize
  · rw [act_init_of_wrong_size hsize] at h
    cases h
    exact .same x

theorem acted_of_act_requestPorts {dev : DeviceId} {count : Nat} {x y : Session} {reply : EnvReply}
    (h : x.act (.requestPorts dev count) = .next (y, reply)) : x.Acted y := by
  cases x with
  | beforeInit owners =>
    cases h
    rcases requestPorts_snd_cases dev count (State.reset.setPortOwner owners) with e | ⟨b, ⟨hin, hfree⟩, e⟩
    · rw [e]; exact .same _
    · rw [e]; exact .claim (.beforeInit owners) dev b count hin hfree
  | running s =>
    cases h
    rcases requestPorts_snd_cases dev count s with e | ⟨b, ⟨hin, hfree⟩, e⟩
    · rw [e]; exact .same _
    · rw [e]; exact .claim (.running s) dev b count hin hfree

theorem acted_of_actRunning {act : EnvAction} {s : State} {y : Session} {reply : EnvReply}
    (h : Session.act act (.running s) = .next (y, reply)) : (Session.running s).Acted y := by
  cases act with
  | init image => exact acted_of_act_init h
  | requestPorts dev count => exact acted_of_act_requestPorts h
  | tick =>
    obtain ⟨t, ht, -⟩ := step_portOwner s
    simp only [Session.act, actRunning, ht] at h
    cases h
    exact .tick ht
  | snapshot | readRam => cases h; exact .same _
  | writeRam a v => cases h; exact .memory s a v
  | getPortData dev p =>
    simp only [Session.act, actRunning] at h
    split at h <;> cases h
    exact .same _
  | setPortData dev p v =>
    simp only [Session.act, actRunning] at h
    split at h <;> cases h
    exact .port s p v
  | triggerInterrupt dev p =>
    simp only [Session.act, actRunning] at h
    split at h <;> cases h
    exact .trigger s p

/-- Before `init` the other actions are refused, so only `init` and port requests answer next (log entry 9). -/
theorem acted_of_act {act : EnvAction} {x y : Session} {reply : EnvReply} (h : x.act act = .next (y, reply)) : x.Acted y := by
  cases x with
  | running s => exact acted_of_actRunning h
  | beforeInit owners =>
    cases act with
    | init image => exact acted_of_act_init h
    | requestPorts dev count => exact acted_of_act_requestPorts h
    | tick | snapshot | readRam | writeRam | getPortData | setPortData | triggerInterrupt => cases h

/-! ### What every action keeps -/

/-- What every action keeps, every sequence of actions keeps (60_exceptions.md R283). -/
theorem actAll_keeps {C : Session → Prop} (hact : ∀ x y : Session, x.Acted y → C x → C y) {acts : List EnvAction}
    {x y : Session} {reply : EnvReply} (h : x.actAll acts = .next (y, reply)) (hx : C x) : C y := by
  induction acts generalizing x with
  | nil => cases h; exact hx
  | cons a rest ih =>
    cases rest with
    | nil => exact hact x y (acted_of_act h) hx
    | cons b rest =>
      simp only [Session.actAll] at h
      split at h
      · next z _ hz => exact ih h (hact x z (acted_of_act hz) hx)
      · cases h
      · cases h

theorem triggerInterrupt_inv (p : Byte) {s : State} (h : s.Inv) : (triggerInterrupt p s).Inv := by
  rcases triggerInterrupt_cases p s Config.params with ⟨hroom, e⟩ | ⟨-, e⟩
  · rw [e]
    exact { h with
      queueBounded := by simpa using Nat.succ_le_of_lt hroom
      requestMeansQueued := fun _ => by simp }
  · rwa [e]

/-- An owner table in canonical form may take the place of a session's own. -/
theorem Session.Inv.withPortOwner {x : Session} (h : x.Inv) {owners : PortTable DeviceId} (howners : owners.wfOwner = true) :
    (x.withPortOwner owners).Inv := by
  cases x with
  | beforeInit => exact howners
  | running s => exact { (show s.Inv from h) with portOwnerWf := howners }

theorem Session.Inv.portOwner_wf {x : Session} (h : x.Inv) : x.portOwner.wfOwner = true := by
  cases x with
  | beforeInit => exact h
  | running s => exact State.Inv.portOwnerWf h

/-- Every action keeps the invariant (60_exceptions.md R283). -/
theorem Session.Acted.inv {x y : Session} (h : x.Acted y) (hx : x.Inv) : y.Inv := by
  cases h with
  | same => exact hx
  | load _ image hsize => exact loadedState_inv hsize hx.portOwner_wf
  | claim _ dev first count hin => exact hx.withPortOwner (wfOwner_claimBlock dev hin hx.portOwner_wf)
  | tick hstep => exact stepKeepsInvariant _ _ hx hstep
  | memory s a v => exact { (show s.Inv from hx) with memWf := memWrite_wf a v s (State.Inv.memWf hx) }
  | port s p v => exact { (show s.Inv from hx) with portDataWf := portWrite_wf p v s (State.Inv.portDataWf hx) }
  | trigger s p => exact triggerInterrupt_inv p hx

/-- No action takes a port from its owner: a claim writes only ports that have none (60_exceptions.md R264, R267). -/
theorem Session.Acted.ownerOf {x y : Session} (h : x.Acted y) {p : Nat} (hp : x.ownerOf p ≠ 0) : y.ownerOf p = x.ownerOf p := by
  cases h with
  | same | load | memory | port => rfl
  | claim _ dev first count _ hfree =>
    rw [Session.ownerOf, portOwner_withPortOwner, lookup_claimBlock, if_neg fun ⟨hle, hlt⟩ => hp (hfree p hle hlt)]
    rfl
  | tick hstep => exact congrArg (lookup 0 · p) (portOwner_of_step hstep)
  | trigger s q => exact congrArg (lookup 0 · p) (triggerInterrupt_portOwner q s)

/-- A running core stays one (70_reset_and_hazards.md R304). -/
theorem Session.Acted.running {x y : Session} (h : x.Acted y) {s : State} (hx : x = .running s) : ∃ t, y = .running t := by
  subst hx
  cases h with
  | same | load | claim | tick | memory | port | trigger => exact ⟨_, rfl⟩

/-! ### Port requests before `init` -/

/-- A request reads the owner table and nothing else of the state, so a session before `init` answers it as a running core with the
same owners does (60_exceptions.md R264, 70_reset_and_hazards.md R306). -/
theorem requestPorts_congr (dev : DeviceId) (count : Nat) {s t : State} (h : s.portOwner = t.portOwner) :
    (requestPorts dev count s).1 = (requestPorts dev count t).1 ∧
      (requestPorts dev count s).2.portOwner = (requestPorts dev count t).2.portOwner := by
  have hscan : firstFreeBlock count s = firstFreeBlock count t := by
    simp only [firstFreeBlock, blockFree, ownerOf, h]
  unfold requestPorts
  rw [hscan]
  split
  · exact ⟨rfl, h⟩
  · cases firstFreeBlock count t with
    | none => exact ⟨rfl, h⟩
    | some b => exact ⟨rfl, by simp only [State.setPortOwner_portOwner, h]⟩

/-! ### The obligations -/

/-- Settles O56: every action keeps the invariant, so every sequence does. -/
theorem actionsKeepInvariant : Obligations.ActionsKeepInvariant :=
  fun _ _ _ _ hx h => actAll_keeps (C := Session.Inv) (fun _ _ hact => hact.inv) h hx

/-- Settles O50: owning the ports that the first session owns is kept by every action, and so is running. -/
theorem portOwnershipIsPermanent : Obligations.PortOwnershipIsPermanent := by
  refine fun acts x y reply h => ⟨fun p hp => ?owner, fun s hx => ?running⟩
  case owner =>
    refine actAll_keeps (C := fun z => z.ownerOf p = x.ownerOf p) (fun z w hact hz => ?_) h rfl
    rw [hact.ownerOf (hz ▸ hp), hz]
  case running =>
    exact actAll_keeps (C := fun z => ∃ t, z = .running t) (fun z w hact ⟨t, ht⟩ => hact.running ht) h ⟨s, hx⟩

/-- Settles O9: both halves of a tick answer, and on an ended state each of them only clears the marker or does nothing. -/
theorem everyTickIsDefined : Obligations.EveryTickIsDefined := by
  refine ⟨fun s => ?defined, fun s hended => ?ended⟩
  case defined =>
    obtain ⟨t, ht, -⟩ := step_portOwner s
    exact ⟨t, ht⟩
  case ended =>
    obtain ⟨hexec, hH, hq, hreq⟩ := State.ended_iff.1 hended
    exact step_eq_next.2 ⟨_, haltedTickChangesNothing s hexec hH (by simp [hreq]), iodTick_of_idle hq hreq⟩

/-- Settles O48. -/
theorem initLoadsAndResets : Obligations.InitLoadsAndResets :=
  fun _ x => ⟨fun hsize => ⟨_, act_init_of_size hsize x, loadedState_resetFromImage hsize x.portOwner⟩,
    fun hsize => act_init_of_wrong_size hsize x⟩

/-- Settles O52: the refusals case by case, then `init` and port requests by what they do on every session. -/
theorem noTickBeforeInit : Obligations.NoTickBeforeInit := by
  refine fun owners => ⟨?refused, fun image hsize => ⟨_, act_init_of_size hsize _, rfl⟩,
    fun image hsize => act_init_of_wrong_size hsize _, fun dev count s hs => ?request⟩
  case refused =>
    rintro act (rfl | rfl | ⟨_, rfl⟩ | ⟨_, _, rfl⟩ | ⟨_, _, rfl⟩ | ⟨_, _, _, rfl⟩ | ⟨_, _, rfl⟩) <;> rfl
  case request =>
    obtain ⟨hsockets, howners⟩ := requestPorts_congr dev count (s := State.reset.setPortOwner owners) (t := s) hs.symm
    rw [← hsockets, ← howners]
    rfl

end Sys2Proof.Machine

end
